-- ==== Sys2Proof/Word.lean ====
section
/-! DEFINITION. The two word types of the machine (00_scope.md R6: XLEN = 8, ALEN = 16). -/

namespace Sys2Proof

/-- A register or memory cell of the processor: XLEN = 8 bits (R6, R7). -/
abbrev Byte := BitVec 8

/-- A CPU address, and the width of PC: ALEN = 16 bits (R6, R25). -/
abbrev Word := BitVec 16

end Sys2Proof
end

