-- ==== Sys2Proof/Machine/Bits.lean ====
section
/-! DEFINITION. The bit-field, extension and byte-order helpers of 00_scope.md R7 and 20_memory.md R71. -/

namespace Sys2Proof.Machine

/-- `(h << 8) | l`: the little-endian word of a low and a high byte (R71). -/
def wordOf (l h : Byte) : Word := h ++ l

/-- `hi(w)`: bits 15:8 (R7). -/
def hiByte (w : Word) : Byte := w.extractLsb' 8 8

/-- `lo(w)`: bits 7:0 (R7). -/
def loByte (w : Word) : Byte := w.extractLsb' 0 8

/-- `zext_16(b)` (R7). -/
def zext16 (b : Byte) : Word := b.setWidth 16

/-- `sext_16(b)`: the 16-bit pattern of `s8(b)` (R7). -/
def sext16 (b : Byte) : Word := b.signExtend 16

/-- `rev8(b)`: bit i exchanged with bit 7 - i (63_picture_rendering.md R442). -/
def rev8 (b : Byte) : Byte :=
  ((b &&& 0x01#8) <<< 7) ||| ((b &&& 0x02#8) <<< 5) ||| ((b &&& 0x04#8) <<< 3) ||| ((b &&& 0x08#8) <<< 1)
    ||| ((b &&& 0x10#8) >>> 1) ||| ((b &&& 0x20#8) >>> 3) ||| ((b &&& 0x40#8) >>> 5) ||| ((b &&& 0x80#8) >>> 7)

end Sys2Proof.Machine
end

