-- ==== Sys2Proof/Config.lean ====
section
/-! DEFINITION. The parameters of the machine (00_scope.md R6): the fixed sizes, and the types of the parameters a run may
choose. The parameters' default values are in Sys2Proof/Machine/Defaults.lean. -/

namespace Sys2Proof

/-- RAM_SIZE of R6: the internal work memory. -/
def Config.ramSize : Nat := 2048

/-- VRAM_SIZE of R6: nametable and attribute memory. -/
def Config.vramSize : Nat := 2048

/-- OAM_SIZE of R6: 64 entries of 4 bytes. -/
def Config.oamSize : Nat := 256

/-- PALETTE_SIZE of R6. -/
def Config.paletteSize : Nat := 32

/-- The size of the pattern memory CHR (R6, 64_cartridge_mapper.md R470). -/
def Config.chrSize : Nat := 8192

/-- FB_HEIGHT of R6: rows of the FrameBuffer. -/
def Config.fbHeight : Nat := 240

/-- FB_WIDTH of R6: cells of a row of the FrameBuffer. -/
def Config.fbWidth : Nat := 256

/-- The two values of the nametable mirroring flag (64_cartridge_mapper.md R478). -/
inductive Mirroring where
  | horizontal
  | vertical
  deriving DecidableEq, Repr

/-- The two accepted lengths of PRG (64_cartridge_mapper.md R470). -/
inductive PrgSize where
  | k16
  | k32
  deriving DecidableEq, Repr

/-- length(PRG) in bytes (R470). -/
def PrgSize.bytes : PrgSize → Nat
  | .k16 => 16384
  | .k32 => 32768

/-- The rows of R6 marked `parameter` that a step consults and that are no part of the cartridge. The model carries them in State,
where no step changes them (DESIGN CHOICE, log 3; safe). ILLEGAL_OPCODES is fixed at the empty set (log 8); SYSTEM_PALETTE is
consulted by no rule and is not carried (log 17). -/
structure Params where
  /-- INT_CYCLES: cost of an interrupt-service step. -/
  intCycles : Nat
  /-- RESET_CYCLES: cycles charged by reset. -/
  resetCycles : Nat
  /-- DMA_STALL_CYCLES: stall charged after a sprite DMA. -/
  dmaStallCycles : Nat
  /-- OPEN_BUS: the byte a read returns that no device answers. -/
  openBus : Byte
  /-- PAD2_PRESENT: a second Input Latch answers at 0x4017. -/
  pad2Present : Bool
  /-- RAM_INIT: content of RAM, VRAM, OAM and (its low 6 bits) PAL at reset. -/
  ramInit : Byte
  deriving DecidableEq, Repr

end Sys2Proof
end

