-- ==== Sys2Proof/Machine/Defaults.lean ====
section
/-! DEFINITION. The default values of the parameters (00_scope.md R6), the reset values of S and P (10_state.md R24, R26), and
what a memory cell that no list entry names reads as. -/

namespace Sys2Proof.Machine

/-- The defaults of R6 (decisions D7, D12, D13, D14, D17 of the spec). -/
def defaultParams : Params :=
  { intCycles := 7, resetCycles := 7, dmaStallCycles := 513, openBus := 0x00#8, pad2Present := false, ramInit := 0x00#8 }

/-- S after reset (R24, R510). -/
def resetS : Byte := 0xFD#8

/-- P after reset: I = 1 and U = 1, every other bit 0 (R26, R510). -/
def resetP : Byte := 0x24#8

/-- What an unlisted cell of any memory reads as: 0x00, the default of RAM_INIT (R6). Log 10. -/
def blankByte : Byte := 0x00#8

/-- The vectors of 20_memory.md R87. -/
def nmiVector : Word := 0xFFFA#16

/-- The reset vector (R87). -/
def resetVector : Word := 0xFFFC#16

/-- The vector of the maskable interrupt and of BRK (R87). -/
def irqVector : Word := 0xFFFE#16

end Sys2Proof.Machine
end

