-- ==== Sys2Proof/Machine/State.lean ====
section
/-! DEFINITION. The state of the machine (10_state.md R20 to R58), the reasons a step can stop, and the state after reset. -/

namespace Sys2Proof.Machine

/-- A memory: cells in rising address order, none equal to `blankByte`; an address not listed reads `blankByte` (log 10). -/
abbrev Memory := List Host.Cell

/-- One entry of the sprite line buffer (R51). -/
structure SpriteEntry where
  x : Byte
  attr : Byte
  lo : Byte
  hi : Byte
  isZero : Bool
  deriving DecidableEq, Repr

/-- PictureState and FrameBuffer (R40 to R52). -/
structure Picture where
  /-- PG.scanline, 0 to 261 (R40). -/
  scanline : Nat
  /-- PG.dot, 0 to 340 (R40). -/
  dot : Nat
  /-- PG.frame_count (R40). -/
  frameCount : Nat
  /-- CTRL (R41). -/
  ctrl : Byte
  /-- MASK (R42). -/
  mask : Byte
  /-- STATUS.V (R43). -/
  vblank : Bool
  /-- STATUS.S (R43). -/
  spriteZeroHit : Bool
  /-- STATUS.O (R43). -/
  spriteOverflow : Bool
  /-- OAMADDR (R44). -/
  oamAddr : Byte
  /-- The current VRAM address `v` (R45). -/
  v : BitVec 15
  /-- The temporary VRAM address `t` (R45). -/
  t : BitVec 15
  /-- Fine X scroll `x` (R45). -/
  fineX : BitVec 3
  /-- The write toggle `w` (R45). -/
  w : Bool
  /-- PG.buffer, the data read buffer (R46). -/
  buffer : Byte
  /-- OAM, 256 cells (R47). -/
  oam : Memory
  /-- PAL, cells 0 to 31, each a 6-bit value in a byte (R48). -/
  pal : Memory
  /-- VRAM, 2048 cells (R49). -/
  vram : Memory
  /-- nt_latch (R50). -/
  ntLatch : Byte
  /-- at_latch (R50). -/
  atLatch : BitVec 2
  /-- pat_lo_latch (R50). -/
  patLoLatch : Byte
  /-- pat_hi_latch (R50). -/
  patHiLatch : Byte
  /-- bg_lo (R50). -/
  bgLo : BitVec 16
  /-- bg_hi (R50). -/
  bgHi : BitVec 16
  /-- at_lo (R50). -/
  atLo : BitVec 16
  /-- at_hi (R50). -/
  atHi : BitVec 16
  /-- sp[0 .. sp_count - 1] (R51); its length is sp_count (log 9). -/
  sprites : List SpriteEntry
  /-- FB: one memory a row, row 0 first; cell `col` of row `row` is FB[row][col], a 6-bit value in a byte (R52). -/
  fb : List Memory
  deriving DecidableEq, Repr

/-- The cartridge as the loader supplied it (R53, 64_cartridge_mapper.md R470). No step changes it. -/
structure Cartridge where
  /-- length(PRG). -/
  prgSize : PrgSize
  /-- PRG. -/
  prg : Memory
  /-- CHR as supplied by the loader; reset loads it again when pattern memory is RAM (R510). -/
  chrImage : Memory
  /-- CHR_IS_RAM. -/
  chrIsRam : Bool
  /-- MIRRORING. -/
  mirroring : Mirroring
  deriving DecidableEq, Repr

/-- Input Latch state (R54), and that of the second latch (65_input_latch.md R497), which shares the strobe. -/
structure Latch where
  strobe : Bool
  shift : Byte
  idx : Nat
  shift2 : Byte
  idx2 : Nat
  deriving DecidableEq, Repr

/-- The state of the machine: R20's five components, the cartridge, the parameters and the button inputs (log 3, log 5). -/
structure State where
  /-- A (R21). -/
  a : Byte
  /-- X (R22). -/
  x : Byte
  /-- Y (R23). -/
  y : Byte
  /-- S, the stack pointer (R24). -/
  sp : Byte
  /-- P, the status register (R26, R27). -/
  p : Byte
  /-- PC (R25). -/
  pc : Word
  /-- CYC (R30). -/
  cyc : Nat
  /-- rem, the remaining cycles of the step in flight (R31). -/
  rem : Nat
  /-- dma_stall (R32). -/
  dmaStall : Nat
  /-- The fault latch (R33). -/
  fault : Bool
  /-- fault_opcode (R33). -/
  faultOpcode : Byte
  /-- fault_pc (R33). -/
  faultPc : Word
  /-- nmi_request (R34). -/
  nmiRequest : Bool
  /-- irq_request (R34). -/
  irqRequest : Bool
  /-- RAM, 2048 cells (R35). -/
  ram : Memory
  /-- The Picture Generator (R40 to R52). -/
  ppu : Picture
  /-- The cells of CHR, 8192 (R53). -/
  chr : Memory
  /-- The cartridge as loaded (R53). -/
  cart : Cartridge
  /-- The Input Latch (R54). -/
  latch : Latch
  /-- The backend's current snapshot of the buttons (65_input_latch.md R491). -/
  buttons : Byte
  /-- The second pad's snapshot (R497). -/
  buttons2 : Byte
  /-- The parameters (00_scope.md R6). -/
  params : Params
  deriving DecidableEq, Repr

/-- Why the machine stops. -/
inductive Fault where
  /-- Raised by `step` on a state whose fault latch is set: FatalDecodeError was raised by an earlier step and the machine has no step
  (60_exceptions.md R282). Carries fault_opcode and fault_pc. Safe: the hardware goes no further either. -/
  | fatalDecodeError (opcode : Byte) (pc : Word)
  deriving DecidableEq, Repr

/-- Why there is no meaning or no machine. -/
inductive Refusal where
  /-- Raised by a refused arm of `exec`; no arm is refused. Safe. -/
  | notModelled (mnemonic : String)
  /-- Raised by `loadCartridge`: UnsupportedMapperError, MAPPER_ID is not 0 (60_exceptions.md R283). No step raises it. Safe. -/
  | unsupportedMapper (mapperId : Nat)
  /-- Raised by `loadCartridge`: PRG has neither 16384 nor 32768 bytes (R283). No step raises it. Safe. -/
  | badPrgLength (length : Nat)
  /-- Raised by `loadCartridge`: CHR has not 8192 bytes (R283). No step raises it. Safe. -/
  | badChrLength (length : Nat)
  /-- Raised by `loadCartridge`: the mirroring flag has neither of its two values (R283). No step raises it. Safe. -/
  | badMirroring
  deriving DecidableEq, Repr

/-- What `exec`, `step` and every meaning answer. -/
abbrev StepResult := Host.Outcome State Fault Refusal

/-- No cartridge data: the parameters that R6 leaves without a default, at a value the model names (DESIGN CHOICE, log 1 and 2; unsafe):
32768 bytes of 0x00, pattern ROM of 0x00, horizontal mirroring. -/
def blankCartridge : Cartridge :=
  { prgSize := .k32, prg := [], chrImage := [], chrIsRam := false, mirroring := .horizontal }

/-- The Picture Generator after the reset sequence (R56): the 21 dots of the reset tick have moved the position to dot 21. -/
def resetPicture : Picture :=
  { scanline := 0, dot := 21, frameCount := 0, ctrl := 0#8, mask := 0#8, vblank := false, spriteZeroHit := false,
    spriteOverflow := false, oamAddr := 0#8, v := 0#15, t := 0#15, fineX := 0#3, w := false, buffer := 0#8, oam := [],
    pal := [], vram := [], ntLatch := 0#8, atLatch := 0#2, patLoLatch := 0#8, patHiLatch := 0#8, bgLo := 0#16, bgHi := 0#16,
    atLo := 0#16, atHi := 0#16, sprites := [], fb := List.replicate Config.fbHeight [] }

/-- The state right after reset (10_state.md R56, 70_reset_and_hazards.md R510) with the default parameters and the blank cartridge.
PC is the word at the reset vector, which the blank cartridge gives as 0x0000 (log 1). Sys2Proof/Laws/Reset.lean proves that the
reset sequence leaves exactly this state. fault_opcode and fault_pc: log 4; the buttons: log 5. -/
def State.reset : State :=
  { a := 0#8, x := 0#8, y := 0#8, sp := resetS, p := resetP, pc := 0#16, cyc := 7, rem := 0, dmaStall := 0, fault := false,
    faultOpcode := 0#8, faultPc := 0#16, nmiRequest := false, irqRequest := false, ram := [], ppu := resetPicture, chr := [],
    cart := blankCartridge, latch := { strobe := false, shift := 0#8, idx := 0, shift2 := 0#8, idx2 := 0 }, buttons := 0#8,
    buttons2 := 0#8, params := defaultParams }

end Sys2Proof.Machine
end

