-- ==== Sys2Proof/Machine/Flags.lean ====
section
/-! DEFINITION. The status register's flags (10_state.md R26 to R28) and every flag computation of the instruction rules. -/

namespace Sys2Proof.Machine

/-- The flags of P, by name (R26). -/
inductive Flag where
  | c | z | i | d | b | u | v | n
  deriving DecidableEq, Repr

/-- The bit of P a flag stands in (R26). -/
def flagBit : Flag → Nat
  | .c => 0
  | .z => 1
  | .i => 2
  | .d => 3
  | .b => 4
  | .u => 5
  | .v => 6
  | .n => 7

/-- Reads a flag of a status byte. -/
def getFlag (f : Flag) (p : Byte) : Bool := p.getLsbD (flagBit f)

/-- A status byte with one flag written. -/
def setFlag (f : Flag) (val : Bool) (p : Byte) : Byte :=
  if val then p ||| (1#8 <<< flagBit f) else p &&& ~~~(1#8 <<< flagBit f)

/-- `SetZN(v)` (R28). -/
def setZN (v : Byte) (p : Byte) : Byte := setFlag .n (v.getLsbD 7) (setFlag .z (v == 0#8) p)

/-- The carry flag as a number. -/
def carryIn (p : Byte) : Nat := if getFlag .c p then 1 else 0

/-- ADC's result and status from A, the operand and P (42_arithmetic.md R191); the decimal flag is not consulted (R190). -/
def adcByte (a m p : Byte) : Byte × Byte :=
  let t := a.toNat + m.toNat + carryIn p
  let r := BitVec.ofNat 8 t
  let overflow := ((a ^^^ r) &&& (m ^^^ r) &&& 0x80#8) != 0#8
  (r, setZN r (setFlag .v overflow (setFlag .c (decide (0xFF < t)) p)))

/-- SBC's result and status (R192): the addition of the operand's complement. -/
def sbcByte (a m p : Byte) : Byte × Byte := adcByte a (m ^^^ 0xFF#8) p

/-- AND's result and status (43_logic_shift.md R210). -/
def andByte (a m p : Byte) : Byte × Byte := (a &&& m, setZN (a &&& m) p)

/-- ORA's result and status (R211). -/
def oraByte (a m p : Byte) : Byte × Byte := (a ||| m, setZN (a ||| m) p)

/-- EOR's result and status (R212). -/
def eorByte (a m p : Byte) : Byte × Byte := (a ^^^ m, setZN (a ^^^ m) p)

/-- The status after comparing a register with an operand (42_arithmetic.md R193 to R195). -/
def compareFlags (r m p : Byte) : Byte := setZN (r - m) (setFlag .c (decide (m.toNat ≤ r.toNat)) p)

/-- The status after BIT (43_logic_shift.md R213): N and V from the operand, Z from the conjunction. -/
def bitFlags (a m p : Byte) : Byte :=
  setFlag .v (m.getLsbD 6) (setFlag .n (m.getLsbD 7) (setFlag .z (a &&& m == 0#8) p))

/-- ASL's result and status (R214). -/
def aslByte (m p : Byte) : Byte × Byte :=
  let r := m <<< 1
  (r, setZN r (setFlag .c (m.getLsbD 7) p))

/-- LSR's result and status (R215). -/
def lsrByte (m p : Byte) : Byte × Byte :=
  let r := m >>> 1
  (r, setZN r (setFlag .c (m.getLsbD 0) p))

/-- ROL's result and status (R216): the old carry enters bit 0. -/
def rolByte (m p : Byte) : Byte × Byte :=
  let r := (m <<< 1) ||| (if getFlag .c p then 0x01#8 else 0#8)
  (r, setZN r (setFlag .c (m.getLsbD 7) p))

/-- ROR's result and status (R217): the old carry enters bit 7. -/
def rorByte (m p : Byte) : Byte × Byte :=
  let r := (m >>> 1) ||| (if getFlag .c p then 0x80#8 else 0#8)
  (r, setZN r (setFlag .c (m.getLsbD 0) p))

/-- INC's result and status (42_arithmetic.md R196). -/
def incByte (m p : Byte) : Byte × Byte := (m + 1#8, setZN (m + 1#8) p)

/-- DEC's result and status (R199). -/
def decByte (m p : Byte) : Byte × Byte := (m - 1#8, setZN (m - 1#8) p)

/-- P as PLP and RTI load it from a pulled byte: bits 5 and 4 of the byte are ignored (10_state.md R27, 41_stack.md R185). -/
def pulledStatus (m : Byte) : Byte := (m &&& 0xCF#8) ||| 0x20#8

end Sys2Proof.Machine
end

