-- ==== Sys2Proof/Machine/Memory.lean ====
section
/-! DEFINITION. Reading and writing one cell of a memory, the canonical form a write keeps, and the FrameBuffer's cells
(10_state.md R52). -/

namespace Sys2Proof.Machine

/-- The byte at address `a`. -/
def Memory.read (m : Memory) (a : Nat) : Byte :=
  match m with
  | [] => blankByte
  | c :: rest => if c.1 = a then c.2 else Memory.read rest a

/-- The memory without any entry for `a`. -/
def Memory.erase (m : Memory) (a : Nat) : Memory :=
  match m with
  | [] => []
  | c :: rest => if c.1 = a then Memory.erase rest a else c :: Memory.erase rest a

/-- An entry in front, unless it would say what an unlisted address reads as. -/
def Memory.put (m : Memory) (a : Nat) (b : Byte) : Memory :=
  if b = blankByte then m else (a, b) :: m

/-- The memory with `b` at address `a`, in canonical form when `m` is. -/
def Memory.write (m : Memory) (a : Nat) (b : Byte) : Memory :=
  match m with
  | [] => Memory.put [] a b
  | c :: rest => if c.1 < a then c :: Memory.write rest a b else Memory.put (Memory.erase (c :: rest) a) a b

/-- The canonical form: addresses strictly rising, no entry equal to `blankByte`. -/
def Memory.wf (m : Memory) : Bool :=
  match m with
  | [] => true
  | c :: rest => c.2 != blankByte && rest.all (fun d => decide (c.1 < d.1)) && Memory.wf rest

/-- Every listed address is below `n`. -/
def Memory.below (n : Nat) (m : Memory) : Bool := m.all (fun c => decide (c.1 < n))

/-- Every listed byte is a 6-bit value (palette and FrameBuffer cells, R48, R52). -/
def Memory.sixBit (m : Memory) : Bool := m.all (fun c => decide (c.2.toNat < 64))

/-- `n` cells from address `a` on, all holding `b`. -/
def Memory.fillFrom (a : Nat) (b : Byte) : Nat → Memory
  | 0 => []
  | n + 1 => Memory.put (Memory.fillFrom (a + 1) b n) a b

/-- `n` cells from address 0 on, all holding `b` (RAM_INIT of R6). -/
def Memory.fill (n : Nat) (b : Byte) : Memory :=
  if b = blankByte then [] else Memory.fillFrom 0 b n

/-- The memory whose cells from address `a` on are the bytes of a list (what the loader supplies, 64_cartridge_mapper.md R470). -/
def Memory.ofBytes (a : Nat) : List Byte → Memory
  | [] => []
  | b :: bs => Memory.put (Memory.ofBytes (a + 1) bs) a b

/-- FB[row][col] (R52). -/
def fbRead (fb : List Memory) (row col : Nat) : Byte :=
  match fb, row with
  | [], _ => blankByte
  | r :: _, 0 => Memory.read r col
  | _ :: rs, n + 1 => fbRead rs n col

/-- FB[row][col] <- c (R52, 63_picture_rendering.md R445). -/
def fbWrite (fb : List Memory) (row col : Nat) (c : Byte) : List Memory :=
  match fb, row with
  | [], _ => []
  | r :: rs, 0 => Memory.write r col c :: rs
  | r :: rs, n + 1 => r :: fbWrite rs n col c

end Sys2Proof.Machine
end

