-- ==== Sys2Proof/Machine/InputLatch.lean ====
section
/-! DEFINITION. The Input Latch (65_input_latch.md R490 to R497). -/

namespace Sys2Proof.Machine

/-- `LatchStrobe(b)` (R492); it reloads the second latch too when one is present (R497). -/
def latchStrobe (b : Bool) (s : State) : State :=
  let l := s.latch
  if l.strobe || b then
    if s.params.pad2Present then
      { s with latch := { strobe := b, shift := s.buttons, idx := 0, shift2 := s.buttons2, idx2 := 0 } }
    else { s with latch := { l with strobe := b, shift := s.buttons, idx := 0 } }
  else { s with latch := { l with strobe := b } }

/-- The serial bit as the byte a port read returns: bits 7:1 are 0 (R494). -/
def serialByte (b : Bool) : Byte := if b then 1#8 else 0#8

/-- `LatchRead()` (R494). -/
def latchRead (s : State) : Byte × State :=
  let l := s.latch
  if l.strobe then (serialByte (s.buttons.getLsbD 0), { s with latch := { l with shift := s.buttons, idx := 0 } })
  else if 8 ≤ l.idx then (1#8, s)
  else (serialByte (l.shift.getLsbD l.idx), { s with latch := { l with idx := l.idx + 1 } })

/-- `Latch2Read()` (R497): R494 on the second latch. -/
def latch2Read (s : State) : Byte × State :=
  let l := s.latch
  if l.strobe then (serialByte (s.buttons2.getLsbD 0), { s with latch := { l with shift2 := s.buttons2, idx2 := 0 } })
  else if 8 ≤ l.idx2 then (1#8, s)
  else (serialByte (l.shift2.getLsbD l.idx2), { s with latch := { l with idx2 := l.idx2 + 1 } })

end Sys2Proof.Machine
end

