-- ==== Sys2Proof/Machine/Mapper.lean ====
section
/-! DEFINITION. The three operations of the mandatory Cartridge Mapper variant (64_cartridge_mapper.md R472 to R475) and nametable
mirroring (R478). -/

namespace Sys2Proof.Machine

/-- The index into PRG of a CPU address of the program window, 0x8000 to 0xFFFF (R472). -/
def prgIndex (size : PrgSize) (a : Word) : Nat := (a.toNat - 0x8000) % size.bytes

/-- `Mapper.read_prg(a)` (R472): 0x4020 to 0x7FFF is not decoded. -/
def readPrg (cart : Cartridge) (openBus : Byte) (a : Word) : Byte :=
  if 0x8000 ≤ a.toNat then cart.prg.read (prgIndex cart.prgSize a) else openBus

/-- `Mapper.write_prg(a, v)` (R473): ignored, whatever the address and the byte. -/
def writePrg (_a : Word) (_v : Byte) (s : State) : State := s

/-- `Mapper.read_chr(a)` (R475). -/
def readChr (chr : Memory) (a : BitVec 14) : Byte := chr.read a.toNat

/-- The physical table of a logical nametable `n` (R478). -/
def physicalTable (mirroring : Mirroring) (n : BitVec 2) : BitVec 1 :=
  match mirroring with
  | .horizontal => n.extractLsb' 1 1
  | .vertical => n.extractLsb' 0 1

/-- `NtIndex(a)` (62_picture_registers.md R387, R478): the index into VRAM of a nametable address. -/
def ntIndex (mirroring : Mirroring) (a : BitVec 14) : Nat :=
  (physicalTable mirroring (a.extractLsb' 10 2)).toNat * 1024 + (a &&& 0x03FF#14).toNat

end Sys2Proof.Machine
end

