-- ==== Sys2Proof/Machine/PictureRegs.lean ====
section
/-! DEFINITION. The Picture Generator's control and mask fields (10_state.md R41, R42), its address space (62_picture_registers.md
R384 to R388) and its eight registers (R360 to R378). -/

namespace Sys2Proof.Machine

/-- CTRL.INC (R41). -/
def ctrlInc (g : Picture) : Bool := g.ctrl.getLsbD 2
/-- CTRL.SPT (R41). -/
def ctrlSpt (g : Picture) : Bool := g.ctrl.getLsbD 3
/-- CTRL.BGT (R41). -/
def ctrlBgt (g : Picture) : Bool := g.ctrl.getLsbD 4
/-- CTRL.SPH (R41). -/
def ctrlSph (g : Picture) : Bool := g.ctrl.getLsbD 5
/-- CTRL.NMI (R41). -/
def ctrlNmi (g : Picture) : Bool := g.ctrl.getLsbD 7
/-- MASK.GREY (R42). -/
def maskGrey (g : Picture) : Bool := g.mask.getLsbD 0
/-- MASK.BGL (R42). -/
def maskBgl (g : Picture) : Bool := g.mask.getLsbD 1
/-- MASK.SPL (R42). -/
def maskSpl (g : Picture) : Bool := g.mask.getLsbD 2
/-- MASK.BG (R42). -/
def maskBg (g : Picture) : Bool := g.mask.getLsbD 3
/-- MASK.SP (R42). -/
def maskSp (g : Picture) : Bool := g.mask.getLsbD 4
/-- rendering_enabled (R42). -/
def renderingEnabled (g : Picture) : Bool := maskBg g || maskSp g

/-- `PalIndex(a)` (R388): 32 entries mirrored, and 0x10, 0x14, 0x18, 0x1C are the cells 0x00, 0x04, 0x08, 0x0C. -/
def palIndex (a : BitVec 14) : Nat :=
  let i := a &&& 0x1F#14
  if i &&& 0x13#14 = 0x10#14 then (i &&& 0x0F#14).toNat else i.toNat

/-- `PpuRead(a)` (R384). -/
def ppuRead (chr : Memory) (mirroring : Mirroring) (g : Picture) (a : BitVec 14) : Byte :=
  if a.toNat ≤ 0x1FFF then readChr chr a
  else if a.toNat ≤ 0x3EFF then g.vram.read (ntIndex mirroring a)
  else g.pal.read (palIndex a)

/-- `PpuWrite(a, d)` (R385, 64_cartridge_mapper.md R476). -/
def ppuWrite (a : BitVec 14) (d : Byte) (s : State) : State :=
  if a.toNat ≤ 0x1FFF then
    if s.cart.chrIsRam then { s with chr := s.chr.write a.toNat d } else s
  else if a.toNat ≤ 0x3EFF then
    { s with ppu := { s.ppu with vram := s.ppu.vram.write (ntIndex s.cart.mirroring a) d } }
  else { s with ppu := { s.ppu with pal := s.ppu.pal.write (palIndex a) (d &&& 0x3F#8) } }

/-- `v` after an access through register 7: a 15-bit addition of 1 or 32 (R376 to R378). -/
def advanceV (g : Picture) : BitVec 15 := g.v + (if ctrlInc g then 32#15 else 1#15)

/-- `CtrlWrite(d)` (R363). -/
def ctrlWrite (d : Byte) (s : State) : State :=
  let raises := !ctrlNmi s.ppu && d.getLsbD 7 && s.ppu.vblank
  { s with
    ppu := { s.ppu with ctrl := d, t := (s.ppu.t &&& 0x73FF#15) ||| ((d &&& 0x03#8).setWidth 15 <<< 10) }
    nmiRequest := s.nmiRequest || raises }

/-- The value a read of register 2 returns: STATUS in bits 7, 6, 5 and 0 below (R366). -/
def statusByte (g : Picture) : Byte :=
  (if g.vblank then 0x80#8 else 0#8) ||| (if g.spriteZeroHit then 0x40#8 else 0#8) ||| (if g.spriteOverflow then 0x20#8 else 0#8)

/-- `StatusRead()` (R366): clears STATUS.V and `w`. -/
def statusRead (g : Picture) : Byte × Picture := (statusByte g, { g with vblank := false, w := false })

/-- `OamDataWrite(d)` (R369). -/
def oamDataWrite (d : Byte) (g : Picture) : Picture :=
  { g with oam := g.oam.write g.oamAddr.toNat d, oamAddr := g.oamAddr + 1#8 }

/-- `ScrollWrite(d)` (R370). -/
def scrollWrite (d : Byte) (g : Picture) : Picture :=
  if g.w then
    { g with
      t := (g.t &&& 0x0C1F#15) ||| ((d &&& 0x07#8).setWidth 15 <<< 12) ||| ((d >>> 3).setWidth 15 <<< 5)
      w := false }
  else
    { g with
      t := (g.t &&& 0x7FE0#15) ||| (d >>> 3).setWidth 15
      fineX := (d &&& 0x07#8).setWidth 3
      w := true }

/-- `AddrWrite(d)` (R371): the high byte first, and `v` on the second write. -/
def addrWrite (d : Byte) (g : Picture) : Picture :=
  if g.w then
    let t' := (g.t &&& 0x7F00#15) ||| d.setWidth 15
    { g with t := t', v := t', w := false }
  else
    { g with t := (g.t &&& 0x00FF#15) ||| ((d &&& 0x3F#8).setWidth 15 <<< 8), w := true }

/-- `DataRead()` (R376): delayed below 0x3F00, immediate for the palette. -/
def dataRead (chr : Memory) (mirroring : Mirroring) (g : Picture) : Byte × Picture :=
  let a := g.v.setWidth 14
  if a.toNat < 0x3F00 then
    (g.buffer, { g with buffer := ppuRead chr mirroring g a, v := advanceV g })
  else
    (ppuRead chr mirroring g a, { g with buffer := ppuRead chr mirroring g (a - 0x1000#14), v := advanceV g })

/-- `DataWrite(d)` (R377). -/
def dataWrite (d : Byte) (s : State) : State :=
  let s1 := ppuWrite (s.ppu.v.setWidth 14) d s
  { s1 with ppu := { s1.ppu with v := advanceV s.ppu } }

/-- `PpuRegRead(r)` (R361): the byte and the state with the register's read side effect. -/
def ppuRegRead (r : Nat) (s : State) : Byte × State :=
  match r with
  | 2 => ((statusRead s.ppu).1, { s with ppu := (statusRead s.ppu).2 })
  | 4 => (s.ppu.oam.read s.ppu.oamAddr.toNat, s)
  | 7 => ((dataRead s.chr s.cart.mirroring s.ppu).1, { s with ppu := (dataRead s.chr s.cart.mirroring s.ppu).2 })
  | _ => (s.params.openBus, s)

/-- `PpuRegWrite(r, d)` (R362): register 1 is MASK (R364), register 2 ignores the write (R365), register 3 is OAMADDR (R367). -/
def ppuRegWrite (r : Nat) (d : Byte) (s : State) : State :=
  match r with
  | 0 => ctrlWrite d s
  | 1 => { s with ppu := { s.ppu with mask := d } }
  | 3 => { s with ppu := { s.ppu with oamAddr := d } }
  | 4 => { s with ppu := oamDataWrite d s.ppu }
  | 5 => { s with ppu := scrollWrite d s.ppu }
  | 6 => { s with ppu := addrWrite d s.ppu }
  | 7 => dataWrite d s
  | _ => s

end Sys2Proof.Machine
end

