-- ==== Sys2Proof/Machine/Ops.lean ====
section
/-! DEFINITION. The named operations over registers and memory: the bus reads and writes (61_system_bus.md R322, R323), sprite DMA
(R335), fetching a byte (30_encoding.md R121), the stack (41_stack.md R180, R181), taking an exception and returning from one
(60_exceptions.md R294, 44_control_flow.md R243, R244), and FatalDecodeError (R282). -/

namespace Sys2Proof.Machine

/-- The four general registers (10_state.md R29). -/
inductive Reg where
  | a | x | y | s
  deriving DecidableEq, Repr

/-- Reads a general register. -/
def readReg : Reg → State → Byte
  | .a, s => s.a
  | .x, s => s.x
  | .y, s => s.y
  | .s, s => s.sp

/-- Writes a general register. -/
def writeReg (r : Reg) (v : Byte) (s : State) : State :=
  match r with
  | .a => { s with a := v }
  | .x => { s with x := v }
  | .y => { s with y := v }
  | .s => { s with sp := v }

/-- Writes the status register. -/
def setP (p : Byte) (s : State) : State := { s with p := p }

/-- Writes the program counter. -/
def setPc (pc : Word) (s : State) : State := { s with pc := pc }

/-- The instruction ends; `rem` holds its cost, base plus penalty (60_exceptions.md R280, 10_state.md R31, log 11). -/
def finish (cost : Nat) (s : State) : StepResult := .next { s with rem := cost }

/-- `MemRead(a, 1)` (61_system_bus.md R322): the byte, and the state with the read side effect of the device reached. -/
def memRead (a : Word) (s : State) : Byte × State :=
  if a.toNat ≤ 0x1FFF then (s.ram.read (a.toNat % Config.ramSize), s)
  else if a.toNat ≤ 0x3FFF then ppuRegRead (a.toNat % 8) s
  else if a = 0x4016#16 then latchRead s
  else if a = 0x4017#16 then (if s.params.pad2Present then latch2Read s else (0x00#8, s))
  else if a.toNat ≤ 0x401F then (s.params.openBus, s)
  else (readPrg s.cart s.params.openBus a, s)

/-- The loop of `OamDma` (R335): `n` bytes from index `i` of the page on, in ascending order, each by the one read path of R322. DESIGN CHOICE
(log 20): from page 0x40 that is one read of the Latch port, at 0x4016, where R337's aside counts 32. -/
def dmaCopy (page : Byte) : Nat → Nat → State → State
  | 0, _, s => s
  | n + 1, i, s =>
    let r := memRead (wordOf (BitVec.ofNat 8 i) page) s
    dmaCopy page n (i + 1) { r.2 with ppu := oamDataWrite r.1 r.2.ppu }

/-- `OamDma(page)` (R335 to R337): 256 bytes, then the stall is set for the next step. -/
def oamDma (page : Byte) (s : State) : State :=
  let s1 := dmaCopy page 256 0 s
  { s1 with dmaStall := s1.params.dmaStallCycles }

/-- `MemWrite(a, 1, v)` (R323). -/
def memWrite (a : Word) (v : Byte) (s : State) : State :=
  if a.toNat ≤ 0x1FFF then { s with ram := s.ram.write (a.toNat % Config.ramSize) v }
  else if a.toNat ≤ 0x3FFF then ppuRegWrite (a.toNat % 8) v s
  else if a = 0x4014#16 then oamDma v s
  else if a = 0x4016#16 then latchStrobe (v.getLsbD 0) s
  else if a.toNat ≤ 0x401F then s
  else writePrg a v s

/-- `MemRead16(a)` (00_scope.md R8, 20_memory.md R71): the low byte is read first. -/
def memRead16 (a : Word) (s : State) : Word × State :=
  let l := memRead a s
  let h := memRead (a + 1#16) l.2
  (wordOf l.1 h.1, h.2)

/-- `fetch8()` (30_encoding.md R121). -/
def fetch8 (s : State) : Byte × State :=
  let r := memRead s.pc s
  (r.1, setPc (r.2.pc + 1#16) r.2)

/-- The stack address `0x0100 + S` (41_stack.md R180). -/
def stackAddr (s : State) : Word := wordOf s.sp 0x01#8

/-- `Push(v)` (R180): the write first, the decrement second. -/
def push (v : Byte) (s : State) : State :=
  let s1 := memWrite (stackAddr s) v s
  writeReg .s (s1.sp - 1#8) s1

/-- `Pull()` (R181): the increment first, the read second. -/
def pull (s : State) : Byte × State :=
  let s1 := writeReg .s (s.sp + 1#8) s
  memRead (stackAddr s1) s1

/-- Pushes a 16-bit value, high byte first (R181, R71). -/
def push16 (w : Word) (s : State) : State := push (loByte w) (push (hiByte w) s)

/-- Pulls a 16-bit value, low byte first (R181). -/
def pull16 (s : State) : Word × State :=
  let l := pull s
  let h := pull l.2
  (wordOf l.1 h.1, h.2)

/-- The copy of P that is pushed: U is 1, and B is 1 for PHP and BRK, 0 for an interrupt (10_state.md R27). -/
def pushedStatus (brk : Bool) (p : Byte) : Byte := (p &&& 0xCF#8) ||| (if brk then 0x30#8 else 0x20#8)

/-- Taking an exception: `InterruptEntry(vector)` (60_exceptions.md R294), and what BRK does after its padding byte (44_control_flow.md
R243). PC and the status go to the stack, `I` becomes 1, PC becomes the word at the vector; `D` and every other flag stay. -/
def takeException (vector : Word) (brk : Bool) (s : State) : State :=
  let s1 := push16 s.pc s
  let s2 := push (pushedStatus brk s1.p) s1
  let s3 := setP (setFlag .i true s2.p) s2
  let v := memRead16 vector s3
  setPc v.1 v.2

/-- Returning from an exception (R244): P, then PC, from the stack. -/
def returnFromException (s : State) : State :=
  let m := pull s
  let s1 := setP (pulledStatus m.1) m.2
  let w := pull16 s1
  setPc w.1 w.2

/-- `raise FatalDecodeError(opcode)` (60_exceptions.md R282), after the opcode fetch: the latch, the byte and its address are recorded
and PC is left at the byte. The step puts the DMA stall back and runs no tick. -/
def raiseFatalDecodeError (opcode : Byte) (s : State) : State :=
  { s with fault := true, faultOpcode := opcode, faultPc := s.pc - 1#16, pc := s.pc - 1#16 }

end Sys2Proof.Machine
end

