-- ==== Sys2Proof/Syntax.lean ====
section
/-! DEFINITION. The instructions (30_encoding.md R120 to R147): one constructor of Instr for each documented row of
spec/opcode_table.json (R141), with the operand bytes the row's mode fetches, and one for the undocumented bytes (R143). -/

namespace Sys2Proof

/-- The addressing modes that yield an effective address for a data access (R127 to R134). -/
inductive AddrMode where
  /-- Zero page (R127). -/
  | zp (d8 : Byte)
  /-- Zero page,X (R128). -/
  | zpx (d8 : Byte)
  /-- Zero page,Y (R129). -/
  | zpy (d8 : Byte)
  /-- Absolute (R130). -/
  | abs (a16 : Word)
  /-- Absolute,X (R131). -/
  | abx (a16 : Word)
  /-- Absolute,Y (R132). -/
  | aby (a16 : Word)
  /-- (Indirect,X) (R133). -/
  | izx (d8 : Byte)
  /-- (Indirect),Y (R134). -/
  | izy (d8 : Byte)
  deriving DecidableEq, Repr

/-- The operand of a read-class instruction (R123): immediate (R126) or memory. -/
inductive Source where
  | imm (d8 : Byte)
  | mem (m : AddrMode)
  deriving DecidableEq, Repr

/-- The operand of a shift or rotate (R125, R214 to R217): the accumulator or memory. -/
inductive Target where
  | acc
  | mem (m : AddrMode)
  deriving DecidableEq, Repr

/-- The instructions, one constructor per documented opcode byte (R141), and `undocumented` for the 105 bytes of R143, which the
table lists as rows of one mnemonic (log 7). -/
inductive Instr where
  | ldaImm (d8 : Byte)
  | ldaZp (d8 : Byte)
  | ldaZpx (d8 : Byte)
  | ldaAbs (a16 : Word)
  | ldaAbx (a16 : Word)
  | ldaAby (a16 : Word)
  | ldaIzx (d8 : Byte)
  | ldaIzy (d8 : Byte)
  | ldxImm (d8 : Byte)
  | ldxZp (d8 : Byte)
  | ldxZpy (d8 : Byte)
  | ldxAbs (a16 : Word)
  | ldxAby (a16 : Word)
  | ldyImm (d8 : Byte)
  | ldyZp (d8 : Byte)
  | ldyZpx (d8 : Byte)
  | ldyAbs (a16 : Word)
  | ldyAbx (a16 : Word)
  | staZp (d8 : Byte)
  | staZpx (d8 : Byte)
  | staAbs (a16 : Word)
  | staAbx (a16 : Word)
  | staAby (a16 : Word)
  | staIzx (d8 : Byte)
  | staIzy (d8 : Byte)
  | stxZp (d8 : Byte)
  | stxZpy (d8 : Byte)
  | stxAbs (a16 : Word)
  | styZp (d8 : Byte)
  | styZpx (d8 : Byte)
  | styAbs (a16 : Word)
  | tax
  | tay
  | txa
  | tya
  | tsx
  | txs
  | pha
  | php
  | pla
  | plp
  | adcImm (d8 : Byte)
  | adcZp (d8 : Byte)
  | adcZpx (d8 : Byte)
  | adcAbs (a16 : Word)
  | adcAbx (a16 : Word)
  | adcAby (a16 : Word)
  | adcIzx (d8 : Byte)
  | adcIzy (d8 : Byte)
  | sbcImm (d8 : Byte)
  | sbcZp (d8 : Byte)
  | sbcZpx (d8 : Byte)
  | sbcAbs (a16 : Word)
  | sbcAbx (a16 : Word)
  | sbcAby (a16 : Word)
  | sbcIzx (d8 : Byte)
  | sbcIzy (d8 : Byte)
  | cmpImm (d8 : Byte)
  | cmpZp (d8 : Byte)
  | cmpZpx (d8 : Byte)
  | cmpAbs (a16 : Word)
  | cmpAbx (a16 : Word)
  | cmpAby (a16 : Word)
  | cmpIzx (d8 : Byte)
  | cmpIzy (d8 : Byte)
  | cpxImm (d8 : Byte)
  | cpxZp (d8 : Byte)
  | cpxAbs (a16 : Word)
  | cpyImm (d8 : Byte)
  | cpyZp (d8 : Byte)
  | cpyAbs (a16 : Word)
  | incZp (d8 : Byte)
  | incZpx (d8 : Byte)
  | incAbs (a16 : Word)
  | incAbx (a16 : Word)
  | inx
  | iny
  | decZp (d8 : Byte)
  | decZpx (d8 : Byte)
  | decAbs (a16 : Word)
  | decAbx (a16 : Word)
  | dex
  | dey
  | andImm (d8 : Byte)
  | andZp (d8 : Byte)
  | andZpx (d8 : Byte)
  | andAbs (a16 : Word)
  | andAbx (a16 : Word)
  | andAby (a16 : Word)
  | andIzx (d8 : Byte)
  | andIzy (d8 : Byte)
  | oraImm (d8 : Byte)
  | oraZp (d8 : Byte)
  | oraZpx (d8 : Byte)
  | oraAbs (a16 : Word)
  | oraAbx (a16 : Word)
  | oraAby (a16 : Word)
  | oraIzx (d8 : Byte)
  | oraIzy (d8 : Byte)
  | eorImm (d8 : Byte)
  | eorZp (d8 : Byte)
  | eorZpx (d8 : Byte)
  | eorAbs (a16 : Word)
  | eorAbx (a16 : Word)
  | eorAby (a16 : Word)
  | eorIzx (d8 : Byte)
  | eorIzy (d8 : Byte)
  | bitZp (d8 : Byte)
  | bitAbs (a16 : Word)
  | aslAcc
  | aslZp (d8 : Byte)
  | aslZpx (d8 : Byte)
  | aslAbs (a16 : Word)
  | aslAbx (a16 : Word)
  | lsrAcc
  | lsrZp (d8 : Byte)
  | lsrZpx (d8 : Byte)
  | lsrAbs (a16 : Word)
  | lsrAbx (a16 : Word)
  | rolAcc
  | rolZp (d8 : Byte)
  | rolZpx (d8 : Byte)
  | rolAbs (a16 : Word)
  | rolAbx (a16 : Word)
  | rorAcc
  | rorZp (d8 : Byte)
  | rorZpx (d8 : Byte)
  | rorAbs (a16 : Word)
  | rorAbx (a16 : Word)
  | jmpAbs (a16 : Word)
  | jmpInd (a16 : Word)
  | jsr (a16 : Word)
  | rts
  | bcc (d8 : Byte)
  | bcs (d8 : Byte)
  | beq (d8 : Byte)
  | bne (d8 : Byte)
  | bmi (d8 : Byte)
  | bpl (d8 : Byte)
  | bvc (d8 : Byte)
  | bvs (d8 : Byte)
  | brk
  | rti
  | clc
  | sec
  | cli
  | sei
  | clv
  | cld
  | sed
  | nop
  | undocumented (opcode : Byte)
  deriving DecidableEq, Repr

/-- The mnemonic of an instruction with its operand in the shape its mnemonic allows: the rows of R141 read by mnemonic. Statements
about every form of a mnemonic are made with it. -/
inductive Form where
  | lda (src : Source)
  | ldx (src : Source)
  | ldy (src : Source)
  | sta (m : AddrMode)
  | stx (m : AddrMode)
  | sty (m : AddrMode)
  | tax
  | tay
  | txa
  | tya
  | tsx
  | txs
  | pha
  | php
  | pla
  | plp
  | adc (src : Source)
  | sbc (src : Source)
  | cmp (src : Source)
  | cpx (src : Source)
  | cpy (src : Source)
  | inc (m : AddrMode)
  | inx
  | iny
  | dec (m : AddrMode)
  | dex
  | dey
  | and (src : Source)
  | ora (src : Source)
  | eor (src : Source)
  | bit (m : AddrMode)
  | asl (tgt : Target)
  | lsr (tgt : Target)
  | rol (tgt : Target)
  | ror (tgt : Target)
  | jmpAbs (a16 : Word)
  | jmpInd (a16 : Word)
  | jsr (a16 : Word)
  | rts
  | bcc (d8 : Byte)
  | bcs (d8 : Byte)
  | beq (d8 : Byte)
  | bne (d8 : Byte)
  | bmi (d8 : Byte)
  | bpl (d8 : Byte)
  | bvc (d8 : Byte)
  | bvs (d8 : Byte)
  | brk
  | rti
  | clc
  | sec
  | cli
  | sei
  | clv
  | cld
  | sed
  | nop
  | undocumented (opcode : Byte)
  deriving DecidableEq, Repr

/-- The row of R141 an instruction stands in: its mnemonic and mode. -/
def Instr.form : Instr → Form
  | .ldaImm d8 => .lda (.imm d8)
  | .ldaZp d8 => .lda (.mem (.zp d8))
  | .ldaZpx d8 => .lda (.mem (.zpx d8))
  | .ldaAbs a16 => .lda (.mem (.abs a16))
  | .ldaAbx a16 => .lda (.mem (.abx a16))
  | .ldaAby a16 => .lda (.mem (.aby a16))
  | .ldaIzx d8 => .lda (.mem (.izx d8))
  | .ldaIzy d8 => .lda (.mem (.izy d8))
  | .ldxImm d8 => .ldx (.imm d8)
  | .ldxZp d8 => .ldx (.mem (.zp d8))
  | .ldxZpy d8 => .ldx (.mem (.zpy d8))
  | .ldxAbs a16 => .ldx (.mem (.abs a16))
  | .ldxAby a16 => .ldx (.mem (.aby a16))
  | .ldyImm d8 => .ldy (.imm d8)
  | .ldyZp d8 => .ldy (.mem (.zp d8))
  | .ldyZpx d8 => .ldy (.mem (.zpx d8))
  | .ldyAbs a16 => .ldy (.mem (.abs a16))
  | .ldyAbx a16 => .ldy (.mem (.abx a16))
  | .staZp d8 => .sta (.zp d8)
  | .staZpx d8 => .sta (.zpx d8)
  | .staAbs a16 => .sta (.abs a16)
  | .staAbx a16 => .sta (.abx a16)
  | .staAby a16 => .sta (.aby a16)
  | .staIzx d8 => .sta (.izx d8)
  | .staIzy d8 => .sta (.izy d8)
  | .stxZp d8 => .stx (.zp d8)
  | .stxZpy d8 => .stx (.zpy d8)
  | .stxAbs a16 => .stx (.abs a16)
  | .styZp d8 => .sty (.zp d8)
  | .styZpx d8 => .sty (.zpx d8)
  | .styAbs a16 => .sty (.abs a16)
  | .tax => .tax
  | .tay => .tay
  | .txa => .txa
  | .tya => .tya
  | .tsx => .tsx
  | .txs => .txs
  | .pha => .pha
  | .php => .php
  | .pla => .pla
  | .plp => .plp
  | .adcImm d8 => .adc (.imm d8)
  | .adcZp d8 => .adc (.mem (.zp d8))
  | .adcZpx d8 => .adc (.mem (.zpx d8))
  | .adcAbs a16 => .adc (.mem (.abs a16))
  | .adcAbx a16 => .adc (.mem (.abx a16))
  | .adcAby a16 => .adc (.mem (.aby a16))
  | .adcIzx d8 => .adc (.mem (.izx d8))
  | .adcIzy d8 => .adc (.mem (.izy d8))
  | .sbcImm d8 => .sbc (.imm d8)
  | .sbcZp d8 => .sbc (.mem (.zp d8))
  | .sbcZpx d8 => .sbc (.mem (.zpx d8))
  | .sbcAbs a16 => .sbc (.mem (.abs a16))
  | .sbcAbx a16 => .sbc (.mem (.abx a16))
  | .sbcAby a16 => .sbc (.mem (.aby a16))
  | .sbcIzx d8 => .sbc (.mem (.izx d8))
  | .sbcIzy d8 => .sbc (.mem (.izy d8))
  | .cmpImm d8 => .cmp (.imm d8)
  | .cmpZp d8 => .cmp (.mem (.zp d8))
  | .cmpZpx d8 => .cmp (.mem (.zpx d8))
  | .cmpAbs a16 => .cmp (.mem (.abs a16))
  | .cmpAbx a16 => .cmp (.mem (.abx a16))
  | .cmpAby a16 => .cmp (.mem (.aby a16))
  | .cmpIzx d8 => .cmp (.mem (.izx d8))
  | .cmpIzy d8 => .cmp (.mem (.izy d8))
  | .cpxImm d8 => .cpx (.imm d8)
  | .cpxZp d8 => .cpx (.mem (.zp d8))
  | .cpxAbs a16 => .cpx (.mem (.abs a16))
  | .cpyImm d8 => .cpy (.imm d8)
  | .cpyZp d8 => .cpy (.mem (.zp d8))
  | .cpyAbs a16 => .cpy (.mem (.abs a16))
  | .incZp d8 => .inc (.zp d8)
  | .incZpx d8 => .inc (.zpx d8)
  | .incAbs a16 => .inc (.abs a16)
  | .incAbx a16 => .inc (.abx a16)
  | .inx => .inx
  | .iny => .iny
  | .decZp d8 => .dec (.zp d8)
  | .decZpx d8 => .dec (.zpx d8)
  | .decAbs a16 => .dec (.abs a16)
  | .decAbx a16 => .dec (.abx a16)
  | .dex => .dex
  | .dey => .dey
  | .andImm d8 => .and (.imm d8)
  | .andZp d8 => .and (.mem (.zp d8))
  | .andZpx d8 => .and (.mem (.zpx d8))
  | .andAbs a16 => .and (.mem (.abs a16))
  | .andAbx a16 => .and (.mem (.abx a16))
  | .andAby a16 => .and (.mem (.aby a16))
  | .andIzx d8 => .and (.mem (.izx d8))
  | .andIzy d8 => .and (.mem (.izy d8))
  | .oraImm d8 => .ora (.imm d8)
  | .oraZp d8 => .ora (.mem (.zp d8))
  | .oraZpx d8 => .ora (.mem (.zpx d8))
  | .oraAbs a16 => .ora (.mem (.abs a16))
  | .oraAbx a16 => .ora (.mem (.abx a16))
  | .oraAby a16 => .ora (.mem (.aby a16))
  | .oraIzx d8 => .ora (.mem (.izx d8))
  | .oraIzy d8 => .ora (.mem (.izy d8))
  | .eorImm d8 => .eor (.imm d8)
  | .eorZp d8 => .eor (.mem (.zp d8))
  | .eorZpx d8 => .eor (.mem (.zpx d8))
  | .eorAbs a16 => .eor (.mem (.abs a16))
  | .eorAbx a16 => .eor (.mem (.abx a16))
  | .eorAby a16 => .eor (.mem (.aby a16))
  | .eorIzx d8 => .eor (.mem (.izx d8))
  | .eorIzy d8 => .eor (.mem (.izy d8))
  | .bitZp d8 => .bit (.zp d8)
  | .bitAbs a16 => .bit (.abs a16)
  | .aslAcc => .asl .acc
  | .aslZp d8 => .asl (.mem (.zp d8))
  | .aslZpx d8 => .asl (.mem (.zpx d8))
  | .aslAbs a16 => .asl (.mem (.abs a16))
  | .aslAbx a16 => .asl (.mem (.abx a16))
  | .lsrAcc => .lsr .acc
  | .lsrZp d8 => .lsr (.mem (.zp d8))
  | .lsrZpx d8 => .lsr (.mem (.zpx d8))
  | .lsrAbs a16 => .lsr (.mem (.abs a16))
  | .lsrAbx a16 => .lsr (.mem (.abx a16))
  | .rolAcc => .rol .acc
  | .rolZp d8 => .rol (.mem (.zp d8))
  | .rolZpx d8 => .rol (.mem (.zpx d8))
  | .rolAbs a16 => .rol (.mem (.abs a16))
  | .rolAbx a16 => .rol (.mem (.abx a16))
  | .rorAcc => .ror .acc
  | .rorZp d8 => .ror (.mem (.zp d8))
  | .rorZpx d8 => .ror (.mem (.zpx d8))
  | .rorAbs a16 => .ror (.mem (.abs a16))
  | .rorAbx a16 => .ror (.mem (.abx a16))
  | .jmpAbs a16 => .jmpAbs a16
  | .jmpInd a16 => .jmpInd a16
  | .jsr a16 => .jsr a16
  | .rts => .rts
  | .bcc d8 => .bcc d8
  | .bcs d8 => .bcs d8
  | .beq d8 => .beq d8
  | .bne d8 => .bne d8
  | .bmi d8 => .bmi d8
  | .bpl d8 => .bpl d8
  | .bvc d8 => .bvc d8
  | .bvs d8 => .bvs d8
  | .brk => .brk
  | .rti => .rti
  | .clc => .clc
  | .sec => .sec
  | .cli => .cli
  | .sei => .sei
  | .clv => .clv
  | .cld => .cld
  | .sed => .sed
  | .nop => .nop
  | .undocumented opcode => .undocumented opcode

end Sys2Proof
end

