-- ==== Sys2Proof/Machine/Operands.lean ====
section
/-! DEFINITION. The operand forms (30_encoding.md R123 to R136): effective addresses, operand reads, and the page-crossing flag the
cycle rule R138 uses. -/

namespace Sys2Proof.Machine

/-- What a mode yields: the effective address, `crossed`, and the state after its pointer reads. -/
structure Located where
  ea : Word
  crossed : Bool
  st : State

/-- An indexed address and whether the index changed its page (R131, R132, R134). -/
def indexed (base : Word) (index : Byte) (s : State) : Located :=
  let ea := base + zext16 index
  ⟨ea, hiByte ea != hiByte base, s⟩

/-- A pointer in the zero page: its second byte is read from the zero page too (R133, R134). -/
def zeroPagePointer (p : Byte) (s : State) : Word × State :=
  let l := memRead (zext16 p) s
  let h := memRead (zext16 (p + 1#8)) l.2
  (wordOf l.1 h.1, h.2)

/-- The effective address of a mode (R127 to R134); the operand bytes are already fetched. -/
def locate (m : AddrMode) (s : State) : Located :=
  match m with
  | .zp d8 => ⟨zext16 d8, false, s⟩
  | .zpx d8 => ⟨zext16 (d8 + s.x), false, s⟩
  | .zpy d8 => ⟨zext16 (d8 + s.y), false, s⟩
  | .abs a16 => ⟨a16, false, s⟩
  | .abx a16 => indexed a16 s.x s
  | .aby a16 => indexed a16 s.y s
  | .izx d8 => ⟨(zeroPagePointer (d8 + s.x) s).1, false, (zeroPagePointer (d8 + s.x) s).2⟩
  | .izy d8 => indexed (zeroPagePointer d8 s).1 s.y (zeroPagePointer d8 s).2

/-- An operand that was read: its value, `crossed`, and the state after the reads. -/
structure Operand where
  val : Byte
  crossed : Bool
  st : State

/-- The operand of a read-class instruction (R123, R126): the immediate byte, or one read of the effective address. -/
def readSource (src : Source) (s : State) : Operand :=
  match src with
  | .imm d8 => ⟨d8, false, s⟩
  | .mem m =>
    let l := locate m s
    let r := memRead l.ea l.st
    ⟨r.1, l.crossed, r.2⟩

/-- The page-crossing penalty of a read-class instruction (R138). -/
def crossPenalty (crossed : Bool) : Nat := if crossed then 1 else 0

/-- `IndirectTarget(p)` (44_control_flow.md R231): both pointer bytes come from the pointer's own page. -/
def indirectTarget (p : Word) (s : State) : Word × State :=
  let l := memRead p s
  let h := memRead (wordOf (loByte p + 1#8) (hiByte p)) l.2
  (wordOf l.1 h.1, h.2)

end Sys2Proof.Machine
end

