-- ==== Sys2Proof/Machine/Arithmetic.lean ====
section
/-! DEFINITION. Arithmetic, compare, increment and decrement instructions (42_arithmetic.md R191 to R201). Each meaning takes its operand bytes, and a
state whose PC is past the instruction; the number is the row's base cycles (30_encoding.md R141). -/

namespace Sys2Proof.Machine

/-- An operation on A and an operand whose result goes to A (R191, R192, 43_logic_shift.md R210 to R212): `f` gives the result and the
status from A, the operand and P. -/
def accumulate (f : Byte → Byte → Byte → Byte × Byte) (src : Source) (base : Nat) (s : State) : StepResult :=
  let o := readSource src s
  let r := f o.st.a o.val o.st.p
  finish (base + crossPenalty o.crossed) (setP r.2 (writeReg .a r.1 o.st))

/-- A compare (R193 to R195): flags only. -/
def compareReg (r : Reg) (src : Source) (base : Nat) (s : State) : StepResult :=
  let o := readSource src s
  finish (base + crossPenalty o.crossed) (setP (compareFlags (readReg r o.st) o.val o.st.p) o.st)

/-- Read, modify, write of a memory operand (30_encoding.md R123; R196, R199, 43_logic_shift.md R214 to R217): one read, then one write
of the same address; no page penalty. `f` gives the result and the status from the operand and P. -/
def modifyMem (f : Byte → Byte → Byte × Byte) (m : AddrMode) (base : Nat) (s : State) : StepResult :=
  let l := locate m s
  let r := memRead l.ea l.st
  let q := f r.1 r.2.p
  finish base (setP q.2 (memWrite l.ea q.1 r.2))

/-- The same operation on a register (R197, R198, R200, R201, and the accumulator forms of R214 to R217). -/
def modifyReg (f : Byte → Byte → Byte × Byte) (r : Reg) (base : Nat) (s : State) : StepResult :=
  let q := f (readReg r s) s.p
  finish base (setP q.2 (writeReg r q.1 s))

/-- ADC immediate (R191). -/
def execAdcImm (d8 : Byte) (s : State) : StepResult :=
  accumulate adcByte (.imm d8) 2 s

/-- ADC zero page (R191). -/
def execAdcZp (d8 : Byte) (s : State) : StepResult :=
  accumulate adcByte (.mem (.zp d8)) 3 s

/-- ADC zero page,X (R191). -/
def execAdcZpx (d8 : Byte) (s : State) : StepResult :=
  accumulate adcByte (.mem (.zpx d8)) 4 s

/-- ADC absolute (R191). -/
def execAdcAbs (a16 : Word) (s : State) : StepResult :=
  accumulate adcByte (.mem (.abs a16)) 4 s

/-- ADC absolute,X (R191). -/
def execAdcAbx (a16 : Word) (s : State) : StepResult :=
  accumulate adcByte (.mem (.abx a16)) 4 s

/-- ADC absolute,Y (R191). -/
def execAdcAby (a16 : Word) (s : State) : StepResult :=
  accumulate adcByte (.mem (.aby a16)) 4 s

/-- ADC (indirect,X) (R191). -/
def execAdcIzx (d8 : Byte) (s : State) : StepResult :=
  accumulate adcByte (.mem (.izx d8)) 6 s

/-- ADC (indirect),Y (R191). -/
def execAdcIzy (d8 : Byte) (s : State) : StepResult :=
  accumulate adcByte (.mem (.izy d8)) 5 s

/-- SBC immediate (R192). -/
def execSbcImm (d8 : Byte) (s : State) : StepResult :=
  accumulate sbcByte (.imm d8) 2 s

/-- SBC zero page (R192). -/
def execSbcZp (d8 : Byte) (s : State) : StepResult :=
  accumulate sbcByte (.mem (.zp d8)) 3 s

/-- SBC zero page,X (R192). -/
def execSbcZpx (d8 : Byte) (s : State) : StepResult :=
  accumulate sbcByte (.mem (.zpx d8)) 4 s

/-- SBC absolute (R192). -/
def execSbcAbs (a16 : Word) (s : State) : StepResult :=
  accumulate sbcByte (.mem (.abs a16)) 4 s

/-- SBC absolute,X (R192). -/
def execSbcAbx (a16 : Word) (s : State) : StepResult :=
  accumulate sbcByte (.mem (.abx a16)) 4 s

/-- SBC absolute,Y (R192). -/
def execSbcAby (a16 : Word) (s : State) : StepResult :=
  accumulate sbcByte (.mem (.aby a16)) 4 s

/-- SBC (indirect,X) (R192). -/
def execSbcIzx (d8 : Byte) (s : State) : StepResult :=
  accumulate sbcByte (.mem (.izx d8)) 6 s

/-- SBC (indirect),Y (R192). -/
def execSbcIzy (d8 : Byte) (s : State) : StepResult :=
  accumulate sbcByte (.mem (.izy d8)) 5 s

/-- CMP immediate (R193). -/
def execCmpImm (d8 : Byte) (s : State) : StepResult :=
  compareReg .a (.imm d8) 2 s

/-- CMP zero page (R193). -/
def execCmpZp (d8 : Byte) (s : State) : StepResult :=
  compareReg .a (.mem (.zp d8)) 3 s

/-- CMP zero page,X (R193). -/
def execCmpZpx (d8 : Byte) (s : State) : StepResult :=
  compareReg .a (.mem (.zpx d8)) 4 s

/-- CMP absolute (R193). -/
def execCmpAbs (a16 : Word) (s : State) : StepResult :=
  compareReg .a (.mem (.abs a16)) 4 s

/-- CMP absolute,X (R193). -/
def execCmpAbx (a16 : Word) (s : State) : StepResult :=
  compareReg .a (.mem (.abx a16)) 4 s

/-- CMP absolute,Y (R193). -/
def execCmpAby (a16 : Word) (s : State) : StepResult :=
  compareReg .a (.mem (.aby a16)) 4 s

/-- CMP (indirect,X) (R193). -/
def execCmpIzx (d8 : Byte) (s : State) : StepResult :=
  compareReg .a (.mem (.izx d8)) 6 s

/-- CMP (indirect),Y (R193). -/
def execCmpIzy (d8 : Byte) (s : State) : StepResult :=
  compareReg .a (.mem (.izy d8)) 5 s

/-- CPX immediate (R194). -/
def execCpxImm (d8 : Byte) (s : State) : StepResult :=
  compareReg .x (.imm d8) 2 s

/-- CPX zero page (R194). -/
def execCpxZp (d8 : Byte) (s : State) : StepResult :=
  compareReg .x (.mem (.zp d8)) 3 s

/-- CPX absolute (R194). -/
def execCpxAbs (a16 : Word) (s : State) : StepResult :=
  compareReg .x (.mem (.abs a16)) 4 s

/-- CPY immediate (R195). -/
def execCpyImm (d8 : Byte) (s : State) : StepResult :=
  compareReg .y (.imm d8) 2 s

/-- CPY zero page (R195). -/
def execCpyZp (d8 : Byte) (s : State) : StepResult :=
  compareReg .y (.mem (.zp d8)) 3 s

/-- CPY absolute (R195). -/
def execCpyAbs (a16 : Word) (s : State) : StepResult :=
  compareReg .y (.mem (.abs a16)) 4 s

/-- INC zero page (R196). -/
def execIncZp (d8 : Byte) (s : State) : StepResult :=
  modifyMem incByte (.zp d8) 5 s

/-- INC zero page,X (R196). -/
def execIncZpx (d8 : Byte) (s : State) : StepResult :=
  modifyMem incByte (.zpx d8) 6 s

/-- INC absolute (R196). -/
def execIncAbs (a16 : Word) (s : State) : StepResult :=
  modifyMem incByte (.abs a16) 6 s

/-- INC absolute,X (R196). -/
def execIncAbx (a16 : Word) (s : State) : StepResult :=
  modifyMem incByte (.abx a16) 7 s

/-- INX (R197). -/
def execInx (s : State) : StepResult :=
  modifyReg incByte .x 2 s

/-- INY (R198). -/
def execIny (s : State) : StepResult :=
  modifyReg incByte .y 2 s

/-- DEC zero page (R199). -/
def execDecZp (d8 : Byte) (s : State) : StepResult :=
  modifyMem decByte (.zp d8) 5 s

/-- DEC zero page,X (R199). -/
def execDecZpx (d8 : Byte) (s : State) : StepResult :=
  modifyMem decByte (.zpx d8) 6 s

/-- DEC absolute (R199). -/
def execDecAbs (a16 : Word) (s : State) : StepResult :=
  modifyMem decByte (.abs a16) 6 s

/-- DEC absolute,X (R199). -/
def execDecAbx (a16 : Word) (s : State) : StepResult :=
  modifyMem decByte (.abx a16) 7 s

/-- DEX (R200). -/
def execDex (s : State) : StepResult :=
  modifyReg decByte .x 2 s

/-- DEY (R201). -/
def execDey (s : State) : StepResult :=
  modifyReg decByte .y 2 s

end Sys2Proof.Machine
end

