-- ==== Sys2Proof/Machine/ControlFlow.lean ====
section
/-! DEFINITION. Jumps, calls, returns, branches, BRK and RTI (44_control_flow.md R230 to R244). Each meaning takes its operand bytes, and a
state whose PC is past the instruction; the number is the row's base cycles (30_encoding.md R141). -/

namespace Sys2Proof.Machine

/-- JMP absolute's operation (R230). -/
def jumpTo (a16 : Word) (base : Nat) (s : State) : StepResult := finish base (setPc a16 s)

/-- JMP indirect's operation (R230, R231). -/
def jumpIndirect (a16 : Word) (base : Nat) (s : State) : StepResult :=
  let t := indirectTarget a16 s
  finish base (setPc t.1 t.2)

/-- JSR's operation (R232): the address of its own last byte is pushed. -/
def callSubroutine (a16 : Word) (base : Nat) (s : State) : StepResult := finish base (setPc a16 (push16 (s.pc - 1#16) s))

/-- RTS's operation (R233). -/
def returnSubroutine (base : Nat) (s : State) : StepResult :=
  let w := pull16 s
  finish base (setPc (w.1 + 1#16) w.2)

/-- A branch (R234): one cycle more when taken, two when taken to another page. -/
def branchIf (cond : Bool) (d8 : Byte) (base : Nat) (s : State) : StepResult :=
  let target := s.pc + sext16 d8
  if cond then
    finish (base + 1 + crossPenalty (hiByte target != hiByte s.pc)) (setPc target s)
  else finish base s

/-- BRK's operation (R243): the padding byte is skipped unread, then the exception is taken with B set. -/
def breakInstr (base : Nat) (s : State) : StepResult :=
  finish base (takeException irqVector true (setPc (s.pc + 1#16) s))

/-- JMP absolute (R230). -/
def execJmpAbs (a16 : Word) (s : State) : StepResult :=
  jumpTo a16 3 s

/-- JMP indirect (R230). -/
def execJmpInd (a16 : Word) (s : State) : StepResult :=
  jumpIndirect a16 5 s

/-- JSR (R232). -/
def execJsr (a16 : Word) (s : State) : StepResult :=
  callSubroutine a16 6 s

/-- RTS (R233). -/
def execRts (s : State) : StepResult :=
  returnSubroutine 6 s

/-- BCC (R235). -/
def execBcc (d8 : Byte) (s : State) : StepResult :=
  branchIf (!getFlag .c s.p) d8 2 s

/-- BCS (R236). -/
def execBcs (d8 : Byte) (s : State) : StepResult :=
  branchIf (getFlag .c s.p) d8 2 s

/-- BEQ (R237). -/
def execBeq (d8 : Byte) (s : State) : StepResult :=
  branchIf (getFlag .z s.p) d8 2 s

/-- BNE (R238). -/
def execBne (d8 : Byte) (s : State) : StepResult :=
  branchIf (!getFlag .z s.p) d8 2 s

/-- BMI (R239). -/
def execBmi (d8 : Byte) (s : State) : StepResult :=
  branchIf (getFlag .n s.p) d8 2 s

/-- BPL (R240). -/
def execBpl (d8 : Byte) (s : State) : StepResult :=
  branchIf (!getFlag .n s.p) d8 2 s

/-- BVC (R241). -/
def execBvc (d8 : Byte) (s : State) : StepResult :=
  branchIf (!getFlag .v s.p) d8 2 s

/-- BVS (R242). -/
def execBvs (d8 : Byte) (s : State) : StepResult :=
  branchIf (getFlag .v s.p) d8 2 s

/-- BRK (R243). -/
def execBrk (s : State) : StepResult :=
  breakInstr 7 s

/-- RTI (R244). -/
def execRti (s : State) : StepResult :=
  finish 6 (returnFromException s)

end Sys2Proof.Machine
end

