-- ==== Sys2Proof/Machine/FlagNop.lean ====
section
/-! DEFINITION. Flag instructions and NOP (45_flags_nop.md R260 to R267). Each meaning takes its operand bytes, and a
state whose PC is past the instruction; the number is the row's base cycles (30_encoding.md R141). -/

namespace Sys2Proof.Machine

/-- A flag instruction (R260 to R266). -/
def writeFlag (f : Flag) (val : Bool) (base : Nat) (s : State) : StepResult := finish base (setP (setFlag f val s.p) s)

/-- CLC (R260). -/
def execClc (s : State) : StepResult :=
  writeFlag .c false 2 s

/-- SEC (R261). -/
def execSec (s : State) : StepResult :=
  writeFlag .c true 2 s

/-- CLI (R262). -/
def execCli (s : State) : StepResult :=
  writeFlag .i false 2 s

/-- SEI (R263). -/
def execSei (s : State) : StepResult :=
  writeFlag .i true 2 s

/-- CLV (R264). -/
def execClv (s : State) : StepResult :=
  writeFlag .v false 2 s

/-- CLD (R265). -/
def execCld (s : State) : StepResult :=
  writeFlag .d false 2 s

/-- SED (R266). -/
def execSed (s : State) : StepResult :=
  writeFlag .d true 2 s

/-- NOP (R267). -/
def execNop (s : State) : StepResult :=
  finish 2 s

end Sys2Proof.Machine
end

