-- ==== Sys2Proof/Machine/LoadStore.lean ====
section
/-! DEFINITION. Load, store and register-transfer instructions (40_load_store_transfer.md R160 to R171). Each meaning takes its operand bytes, and a
state whose PC is past the instruction; the number is the row's base cycles (30_encoding.md R141). -/

namespace Sys2Proof.Machine

/-- A load (R160 to R162): the operand goes to the register and sets Z and N. -/
def loadReg (r : Reg) (src : Source) (base : Nat) (s : State) : StepResult :=
  let o := readSource src s
  finish (base + crossPenalty o.crossed) (setP (setZN o.val o.st.p) (writeReg r o.val o.st))

/-- A store (R163 to R165): one write, no read of the address, no flag, no page penalty. -/
def storeReg (r : Reg) (m : AddrMode) (base : Nat) (s : State) : StepResult :=
  let l := locate m s
  finish base (memWrite l.ea (readReg r l.st) l.st)

/-- A transfer that sets Z and N (R166 to R170). -/
def transferFlags (src dst : Reg) (base : Nat) (s : State) : StepResult :=
  finish base (setP (setZN (readReg src s) s.p) (writeReg dst (readReg src s) s))

/-- A transfer that sets no flag (R171). -/
def transferPlain (src dst : Reg) (base : Nat) (s : State) : StepResult :=
  finish base (writeReg dst (readReg src s) s)

/-- LDA immediate (R160). -/
def execLdaImm (d8 : Byte) (s : State) : StepResult :=
  loadReg .a (.imm d8) 2 s

/-- LDA zero page (R160). -/
def execLdaZp (d8 : Byte) (s : State) : StepResult :=
  loadReg .a (.mem (.zp d8)) 3 s

/-- LDA zero page,X (R160). -/
def execLdaZpx (d8 : Byte) (s : State) : StepResult :=
  loadReg .a (.mem (.zpx d8)) 4 s

/-- LDA absolute (R160). -/
def execLdaAbs (a16 : Word) (s : State) : StepResult :=
  loadReg .a (.mem (.abs a16)) 4 s

/-- LDA absolute,X (R160). -/
def execLdaAbx (a16 : Word) (s : State) : StepResult :=
  loadReg .a (.mem (.abx a16)) 4 s

/-- LDA absolute,Y (R160). -/
def execLdaAby (a16 : Word) (s : State) : StepResult :=
  loadReg .a (.mem (.aby a16)) 4 s

/-- LDA (indirect,X) (R160). -/
def execLdaIzx (d8 : Byte) (s : State) : StepResult :=
  loadReg .a (.mem (.izx d8)) 6 s

/-- LDA (indirect),Y (R160). -/
def execLdaIzy (d8 : Byte) (s : State) : StepResult :=
  loadReg .a (.mem (.izy d8)) 5 s

/-- LDX immediate (R161). -/
def execLdxImm (d8 : Byte) (s : State) : StepResult :=
  loadReg .x (.imm d8) 2 s

/-- LDX zero page (R161). -/
def execLdxZp (d8 : Byte) (s : State) : StepResult :=
  loadReg .x (.mem (.zp d8)) 3 s

/-- LDX zero page,Y (R161). -/
def execLdxZpy (d8 : Byte) (s : State) : StepResult :=
  loadReg .x (.mem (.zpy d8)) 4 s

/-- LDX absolute (R161). -/
def execLdxAbs (a16 : Word) (s : State) : StepResult :=
  loadReg .x (.mem (.abs a16)) 4 s

/-- LDX absolute,Y (R161). -/
def execLdxAby (a16 : Word) (s : State) : StepResult :=
  loadReg .x (.mem (.aby a16)) 4 s

/-- LDY immediate (R162). -/
def execLdyImm (d8 : Byte) (s : State) : StepResult :=
  loadReg .y (.imm d8) 2 s

/-- LDY zero page (R162). -/
def execLdyZp (d8 : Byte) (s : State) : StepResult :=
  loadReg .y (.mem (.zp d8)) 3 s

/-- LDY zero page,X (R162). -/
def execLdyZpx (d8 : Byte) (s : State) : StepResult :=
  loadReg .y (.mem (.zpx d8)) 4 s

/-- LDY absolute (R162). -/
def execLdyAbs (a16 : Word) (s : State) : StepResult :=
  loadReg .y (.mem (.abs a16)) 4 s

/-- LDY absolute,X (R162). -/
def execLdyAbx (a16 : Word) (s : State) : StepResult :=
  loadReg .y (.mem (.abx a16)) 4 s

/-- STA zero page (R163). -/
def execStaZp (d8 : Byte) (s : State) : StepResult :=
  storeReg .a (.zp d8) 3 s

/-- STA zero page,X (R163). -/
def execStaZpx (d8 : Byte) (s : State) : StepResult :=
  storeReg .a (.zpx d8) 4 s

/-- STA absolute (R163). -/
def execStaAbs (a16 : Word) (s : State) : StepResult :=
  storeReg .a (.abs a16) 4 s

/-- STA absolute,X (R163). -/
def execStaAbx (a16 : Word) (s : State) : StepResult :=
  storeReg .a (.abx a16) 5 s

/-- STA absolute,Y (R163). -/
def execStaAby (a16 : Word) (s : State) : StepResult :=
  storeReg .a (.aby a16) 5 s

/-- STA (indirect,X) (R163). -/
def execStaIzx (d8 : Byte) (s : State) : StepResult :=
  storeReg .a (.izx d8) 6 s

/-- STA (indirect),Y (R163). -/
def execStaIzy (d8 : Byte) (s : State) : StepResult :=
  storeReg .a (.izy d8) 6 s

/-- STX zero page (R164). -/
def execStxZp (d8 : Byte) (s : State) : StepResult :=
  storeReg .x (.zp d8) 3 s

/-- STX zero page,Y (R164). -/
def execStxZpy (d8 : Byte) (s : State) : StepResult :=
  storeReg .x (.zpy d8) 4 s

/-- STX absolute (R164). -/
def execStxAbs (a16 : Word) (s : State) : StepResult :=
  storeReg .x (.abs a16) 4 s

/-- STY zero page (R165). -/
def execStyZp (d8 : Byte) (s : State) : StepResult :=
  storeReg .y (.zp d8) 3 s

/-- STY zero page,X (R165). -/
def execStyZpx (d8 : Byte) (s : State) : StepResult :=
  storeReg .y (.zpx d8) 4 s

/-- STY absolute (R165). -/
def execStyAbs (a16 : Word) (s : State) : StepResult :=
  storeReg .y (.abs a16) 4 s

/-- TAX (R166). -/
def execTax (s : State) : StepResult :=
  transferFlags .a .x 2 s

/-- TAY (R167). -/
def execTay (s : State) : StepResult :=
  transferFlags .a .y 2 s

/-- TXA (R168). -/
def execTxa (s : State) : StepResult :=
  transferFlags .x .a 2 s

/-- TYA (R169). -/
def execTya (s : State) : StepResult :=
  transferFlags .y .a 2 s

/-- TSX (R170). -/
def execTsx (s : State) : StepResult :=
  transferFlags .s .x 2 s

/-- TXS (R171). -/
def execTxs (s : State) : StepResult :=
  transferPlain .x .s 2 s

end Sys2Proof.Machine
end

