-- ==== Sys2Proof/Machine/LogicShift.lean ====
section
/-! DEFINITION. Logic, bit-test, shift and rotate instructions (43_logic_shift.md R210 to R217). Each meaning takes its operand bytes, and a
state whose PC is past the instruction; the number is the row's base cycles (30_encoding.md R141). -/

namespace Sys2Proof.Machine

/-- BIT's operation (R213): flags only, from A and the memory operand. -/
def testBits (m : AddrMode) (base : Nat) (s : State) : StepResult :=
  let o := readSource (.mem m) s
  finish (base + crossPenalty o.crossed) (setP (bitFlags o.st.a o.val o.st.p) o.st)

/-- AND immediate (R210). -/
def execAndImm (d8 : Byte) (s : State) : StepResult :=
  accumulate andByte (.imm d8) 2 s

/-- AND zero page (R210). -/
def execAndZp (d8 : Byte) (s : State) : StepResult :=
  accumulate andByte (.mem (.zp d8)) 3 s

/-- AND zero page,X (R210). -/
def execAndZpx (d8 : Byte) (s : State) : StepResult :=
  accumulate andByte (.mem (.zpx d8)) 4 s

/-- AND absolute (R210). -/
def execAndAbs (a16 : Word) (s : State) : StepResult :=
  accumulate andByte (.mem (.abs a16)) 4 s

/-- AND absolute,X (R210). -/
def execAndAbx (a16 : Word) (s : State) : StepResult :=
  accumulate andByte (.mem (.abx a16)) 4 s

/-- AND absolute,Y (R210). -/
def execAndAby (a16 : Word) (s : State) : StepResult :=
  accumulate andByte (.mem (.aby a16)) 4 s

/-- AND (indirect,X) (R210). -/
def execAndIzx (d8 : Byte) (s : State) : StepResult :=
  accumulate andByte (.mem (.izx d8)) 6 s

/-- AND (indirect),Y (R210). -/
def execAndIzy (d8 : Byte) (s : State) : StepResult :=
  accumulate andByte (.mem (.izy d8)) 5 s

/-- ORA immediate (R211). -/
def execOraImm (d8 : Byte) (s : State) : StepResult :=
  accumulate oraByte (.imm d8) 2 s

/-- ORA zero page (R211). -/
def execOraZp (d8 : Byte) (s : State) : StepResult :=
  accumulate oraByte (.mem (.zp d8)) 3 s

/-- ORA zero page,X (R211). -/
def execOraZpx (d8 : Byte) (s : State) : StepResult :=
  accumulate oraByte (.mem (.zpx d8)) 4 s

/-- ORA absolute (R211). -/
def execOraAbs (a16 : Word) (s : State) : StepResult :=
  accumulate oraByte (.mem (.abs a16)) 4 s

/-- ORA absolute,X (R211). -/
def execOraAbx (a16 : Word) (s : State) : StepResult :=
  accumulate oraByte (.mem (.abx a16)) 4 s

/-- ORA absolute,Y (R211). -/
def execOraAby (a16 : Word) (s : State) : StepResult :=
  accumulate oraByte (.mem (.aby a16)) 4 s

/-- ORA (indirect,X) (R211). -/
def execOraIzx (d8 : Byte) (s : State) : StepResult :=
  accumulate oraByte (.mem (.izx d8)) 6 s

/-- ORA (indirect),Y (R211). -/
def execOraIzy (d8 : Byte) (s : State) : StepResult :=
  accumulate oraByte (.mem (.izy d8)) 5 s

/-- EOR immediate (R212). -/
def execEorImm (d8 : Byte) (s : State) : StepResult :=
  accumulate eorByte (.imm d8) 2 s

/-- EOR zero page (R212). -/
def execEorZp (d8 : Byte) (s : State) : StepResult :=
  accumulate eorByte (.mem (.zp d8)) 3 s

/-- EOR zero page,X (R212). -/
def execEorZpx (d8 : Byte) (s : State) : StepResult :=
  accumulate eorByte (.mem (.zpx d8)) 4 s

/-- EOR absolute (R212). -/
def execEorAbs (a16 : Word) (s : State) : StepResult :=
  accumulate eorByte (.mem (.abs a16)) 4 s

/-- EOR absolute,X (R212). -/
def execEorAbx (a16 : Word) (s : State) : StepResult :=
  accumulate eorByte (.mem (.abx a16)) 4 s

/-- EOR absolute,Y (R212). -/
def execEorAby (a16 : Word) (s : State) : StepResult :=
  accumulate eorByte (.mem (.aby a16)) 4 s

/-- EOR (indirect,X) (R212). -/
def execEorIzx (d8 : Byte) (s : State) : StepResult :=
  accumulate eorByte (.mem (.izx d8)) 6 s

/-- EOR (indirect),Y (R212). -/
def execEorIzy (d8 : Byte) (s : State) : StepResult :=
  accumulate eorByte (.mem (.izy d8)) 5 s

/-- BIT zero page (R213). -/
def execBitZp (d8 : Byte) (s : State) : StepResult :=
  testBits (.zp d8) 3 s

/-- BIT absolute (R213). -/
def execBitAbs (a16 : Word) (s : State) : StepResult :=
  testBits (.abs a16) 4 s

/-- ASL A (R214). -/
def execAslAcc (s : State) : StepResult :=
  modifyReg aslByte .a 2 s

/-- ASL zero page (R214). -/
def execAslZp (d8 : Byte) (s : State) : StepResult :=
  modifyMem aslByte (.zp d8) 5 s

/-- ASL zero page,X (R214). -/
def execAslZpx (d8 : Byte) (s : State) : StepResult :=
  modifyMem aslByte (.zpx d8) 6 s

/-- ASL absolute (R214). -/
def execAslAbs (a16 : Word) (s : State) : StepResult :=
  modifyMem aslByte (.abs a16) 6 s

/-- ASL absolute,X (R214). -/
def execAslAbx (a16 : Word) (s : State) : StepResult :=
  modifyMem aslByte (.abx a16) 7 s

/-- LSR A (R215). -/
def execLsrAcc (s : State) : StepResult :=
  modifyReg lsrByte .a 2 s

/-- LSR zero page (R215). -/
def execLsrZp (d8 : Byte) (s : State) : StepResult :=
  modifyMem lsrByte (.zp d8) 5 s

/-- LSR zero page,X (R215). -/
def execLsrZpx (d8 : Byte) (s : State) : StepResult :=
  modifyMem lsrByte (.zpx d8) 6 s

/-- LSR absolute (R215). -/
def execLsrAbs (a16 : Word) (s : State) : StepResult :=
  modifyMem lsrByte (.abs a16) 6 s

/-- LSR absolute,X (R215). -/
def execLsrAbx (a16 : Word) (s : State) : StepResult :=
  modifyMem lsrByte (.abx a16) 7 s

/-- ROL A (R216). -/
def execRolAcc (s : State) : StepResult :=
  modifyReg rolByte .a 2 s

/-- ROL zero page (R216). -/
def execRolZp (d8 : Byte) (s : State) : StepResult :=
  modifyMem rolByte (.zp d8) 5 s

/-- ROL zero page,X (R216). -/
def execRolZpx (d8 : Byte) (s : State) : StepResult :=
  modifyMem rolByte (.zpx d8) 6 s

/-- ROL absolute (R216). -/
def execRolAbs (a16 : Word) (s : State) : StepResult :=
  modifyMem rolByte (.abs a16) 6 s

/-- ROL absolute,X (R216). -/
def execRolAbx (a16 : Word) (s : State) : StepResult :=
  modifyMem rolByte (.abx a16) 7 s

/-- ROR A (R217). -/
def execRorAcc (s : State) : StepResult :=
  modifyReg rorByte .a 2 s

/-- ROR zero page (R217). -/
def execRorZp (d8 : Byte) (s : State) : StepResult :=
  modifyMem rorByte (.zp d8) 5 s

/-- ROR zero page,X (R217). -/
def execRorZpx (d8 : Byte) (s : State) : StepResult :=
  modifyMem rorByte (.zpx d8) 6 s

/-- ROR absolute (R217). -/
def execRorAbs (a16 : Word) (s : State) : StepResult :=
  modifyMem rorByte (.abs a16) 6 s

/-- ROR absolute,X (R217). -/
def execRorAbx (a16 : Word) (s : State) : StepResult :=
  modifyMem rorByte (.abx a16) 7 s

end Sys2Proof.Machine
end

