-- ==== Sys2Proof/Machine/Stack.lean ====
section
/-! DEFINITION. The stack instructions (41_stack.md R182 to R185). Each meaning takes its operand bytes, and a
state whose PC is past the instruction; the number is the row's base cycles (30_encoding.md R141). -/

namespace Sys2Proof.Machine

/-- A push of one byte (R182, R183). -/
def pushByte (v : Byte) (base : Nat) (s : State) : StepResult := finish base (push v s)

/-- PLA's operation (R184). -/
def pullAccumulator (base : Nat) (s : State) : StepResult :=
  let r := pull s
  finish base (setP (setZN r.1 r.2.p) (writeReg .a r.1 r.2))

/-- PLP's operation (R185). -/
def pullStatus (base : Nat) (s : State) : StepResult :=
  let r := pull s
  finish base (setP (pulledStatus r.1) r.2)

/-- PHA (R182). -/
def execPha (s : State) : StepResult :=
  pushByte s.a 3 s

/-- PHP (R183). -/
def execPhp (s : State) : StepResult :=
  pushByte (pushedStatus true s.p) 3 s

/-- PLA (R184). -/
def execPla (s : State) : StepResult :=
  pullAccumulator 4 s

/-- PLP (R185). -/
def execPlp (s : State) : StepResult :=
  pullStatus 4 s

end Sys2Proof.Machine
end

