-- ==== Sys2Proof/Machine/Undocumented.lean ====
section
/-! DEFINITION. The undocumented opcode bytes (30_encoding.md R143, 60_exceptions.md R282). -/

namespace Sys2Proof.Machine

/-- An undocumented byte raises FatalDecodeError (R282): the next state has the fault latch set and no step of its own (log 6). -/
def execUndocumented (opcode : Byte) (s : State) : StepResult := .next (raiseFatalDecodeError opcode s)

end Sys2Proof.Machine
end

