-- ==== Sys2Proof/Decode.lean ====
section
/-! DEFINITION. The decoder (30_encoding.md R120, R121, R140, R141, R143, R145), total on any bytes, and after it the encoder
written from the same tables. -/

namespace Sys2Proof

/-- Why bytes are no instruction. -/
inductive DecodeError where
  /-- No byte at all. -/
  | empty
  /-- The opcode's operand bytes are not all there (R120). -/
  | truncated (opcode : Byte)
  deriving DecidableEq, Repr

/-- The length column of R141: the number of bytes, from the opcode byte alone (R120, R145). An undocumented byte fetches no operand
(R143, R282). -/
def instrLength (opcode : Byte) : Nat :=
  match opcode.toNat with
  | 0x0D | 0x0E | 0x19 | 0x1D | 0x1E | 0x20 | 0x2C | 0x2D | 0x2E | 0x39 | 0x3D | 0x3E | 0x4C | 0x4D | 0x4E | 0x59
  | 0x5D | 0x5E | 0x6C | 0x6D | 0x6E | 0x79 | 0x7D | 0x7E | 0x8C | 0x8D | 0x8E | 0x99 | 0x9D | 0xAC | 0xAD | 0xAE
  | 0xB9 | 0xBC | 0xBD | 0xBE | 0xCC | 0xCD | 0xCE | 0xD9 | 0xDD | 0xDE | 0xEC | 0xED | 0xEE | 0xF9 | 0xFD | 0xFE => 3
  | 0x01 | 0x05 | 0x06 | 0x09 | 0x10 | 0x11 | 0x15 | 0x16 | 0x21 | 0x24 | 0x25 | 0x26 | 0x29 | 0x30 | 0x31 | 0x35
  | 0x36 | 0x41 | 0x45 | 0x46 | 0x49 | 0x50 | 0x51 | 0x55 | 0x56 | 0x61 | 0x65 | 0x66 | 0x69 | 0x70 | 0x71 | 0x75
  | 0x76 | 0x81 | 0x84 | 0x85 | 0x86 | 0x90 | 0x91 | 0x94 | 0x95 | 0x96 | 0xA0 | 0xA1 | 0xA2 | 0xA4 | 0xA5 | 0xA6
  | 0xA9 | 0xB0 | 0xB1 | 0xB4 | 0xB5 | 0xB6 | 0xC0 | 0xC1 | 0xC4 | 0xC5 | 0xC6 | 0xC9 | 0xD0 | 0xD1 | 0xD5 | 0xD6
  | 0xE0 | 0xE1 | 0xE4 | 0xE5 | 0xE6 | 0xE9 | 0xF0 | 0xF1 | 0xF5 | 0xF6 => 2
  | _ => 1

/-- Row 0x of the matrix of R140, selected by the low nibble. -/
def decodeRow0 (lo : Nat) (opcode d8 : Byte) (a16 : Word) : Instr :=
  match lo with
  | 0x0 => .brk
  | 0x1 => .oraIzx d8
  | 0x5 => .oraZp d8
  | 0x6 => .aslZp d8
  | 0x8 => .php
  | 0x9 => .oraImm d8
  | 0xA => .aslAcc
  | 0xD => .oraAbs a16
  | 0xE => .aslAbs a16
  | _ => .undocumented opcode

/-- Row 1x of the matrix of R140, selected by the low nibble. -/
def decodeRow1 (lo : Nat) (opcode d8 : Byte) (a16 : Word) : Instr :=
  match lo with
  | 0x0 => .bpl d8
  | 0x1 => .oraIzy d8
  | 0x5 => .oraZpx d8
  | 0x6 => .aslZpx d8
  | 0x8 => .clc
  | 0x9 => .oraAby a16
  | 0xD => .oraAbx a16
  | 0xE => .aslAbx a16
  | _ => .undocumented opcode

/-- Row 2x of the matrix of R140, selected by the low nibble. -/
def decodeRow2 (lo : Nat) (opcode d8 : Byte) (a16 : Word) : Instr :=
  match lo with
  | 0x0 => .jsr a16
  | 0x1 => .andIzx d8
  | 0x4 => .bitZp d8
  | 0x5 => .andZp d8
  | 0x6 => .rolZp d8
  | 0x8 => .plp
  | 0x9 => .andImm d8
  | 0xA => .rolAcc
  | 0xC => .bitAbs a16
  | 0xD => .andAbs a16
  | 0xE => .rolAbs a16
  | _ => .undocumented opcode

/-- Row 3x of the matrix of R140, selected by the low nibble. -/
def decodeRow3 (lo : Nat) (opcode d8 : Byte) (a16 : Word) : Instr :=
  match lo with
  | 0x0 => .bmi d8
  | 0x1 => .andIzy d8
  | 0x5 => .andZpx d8
  | 0x6 => .rolZpx d8
  | 0x8 => .sec
  | 0x9 => .andAby a16
  | 0xD => .andAbx a16
  | 0xE => .rolAbx a16
  | _ => .undocumented opcode

/-- Row 4x of the matrix of R140, selected by the low nibble. -/
def decodeRow4 (lo : Nat) (opcode d8 : Byte) (a16 : Word) : Instr :=
  match lo with
  | 0x0 => .rti
  | 0x1 => .eorIzx d8
  | 0x5 => .eorZp d8
  | 0x6 => .lsrZp d8
  | 0x8 => .pha
  | 0x9 => .eorImm d8
  | 0xA => .lsrAcc
  | 0xC => .jmpAbs a16
  | 0xD => .eorAbs a16
  | 0xE => .lsrAbs a16
  | _ => .undocumented opcode

/-- Row 5x of the matrix of R140, selected by the low nibble. -/
def decodeRow5 (lo : Nat) (opcode d8 : Byte) (a16 : Word) : Instr :=
  match lo with
  | 0x0 => .bvc d8
  | 0x1 => .eorIzy d8
  | 0x5 => .eorZpx d8
  | 0x6 => .lsrZpx d8
  | 0x8 => .cli
  | 0x9 => .eorAby a16
  | 0xD => .eorAbx a16
  | 0xE => .lsrAbx a16
  | _ => .undocumented opcode

/-- Row 6x of the matrix of R140, selected by the low nibble. -/
def decodeRow6 (lo : Nat) (opcode d8 : Byte) (a16 : Word) : Instr :=
  match lo with
  | 0x0 => .rts
  | 0x1 => .adcIzx d8
  | 0x5 => .adcZp d8
  | 0x6 => .rorZp d8
  | 0x8 => .pla
  | 0x9 => .adcImm d8
  | 0xA => .rorAcc
  | 0xC => .jmpInd a16
  | 0xD => .adcAbs a16
  | 0xE => .rorAbs a16
  | _ => .undocumented opcode

/-- Row 7x of the matrix of R140, selected by the low nibble. -/
def decodeRow7 (lo : Nat) (opcode d8 : Byte) (a16 : Word) : Instr :=
  match lo with
  | 0x0 => .bvs d8
  | 0x1 => .adcIzy d8
  | 0x5 => .adcZpx d8
  | 0x6 => .rorZpx d8
  | 0x8 => .sei
  | 0x9 => .adcAby a16
  | 0xD => .adcAbx a16
  | 0xE => .rorAbx a16
  | _ => .undocumented opcode

/-- Row 8x of the matrix of R140, selected by the low nibble. -/
def decodeRow8 (lo : Nat) (opcode d8 : Byte) (a16 : Word) : Instr :=
  match lo with
  | 0x1 => .staIzx d8
  | 0x4 => .styZp d8
  | 0x5 => .staZp d8
  | 0x6 => .stxZp d8
  | 0x8 => .dey
  | 0xA => .txa
  | 0xC => .styAbs a16
  | 0xD => .staAbs a16
  | 0xE => .stxAbs a16
  | _ => .undocumented opcode

/-- Row 9x of the matrix of R140, selected by the low nibble. -/
def decodeRow9 (lo : Nat) (opcode d8 : Byte) (a16 : Word) : Instr :=
  match lo with
  | 0x0 => .bcc d8
  | 0x1 => .staIzy d8
  | 0x4 => .styZpx d8
  | 0x5 => .staZpx d8
  | 0x6 => .stxZpy d8
  | 0x8 => .tya
  | 0x9 => .staAby a16
  | 0xA => .txs
  | 0xD => .staAbx a16
  | _ => .undocumented opcode

/-- Row Ax of the matrix of R140, selected by the low nibble. -/
def decodeRowA (lo : Nat) (opcode d8 : Byte) (a16 : Word) : Instr :=
  match lo with
  | 0x0 => .ldyImm d8
  | 0x1 => .ldaIzx d8
  | 0x2 => .ldxImm d8
  | 0x4 => .ldyZp d8
  | 0x5 => .ldaZp d8
  | 0x6 => .ldxZp d8
  | 0x8 => .tay
  | 0x9 => .ldaImm d8
  | 0xA => .tax
  | 0xC => .ldyAbs a16
  | 0xD => .ldaAbs a16
  | 0xE => .ldxAbs a16
  | _ => .undocumented opcode

/-- Row Bx of the matrix of R140, selected by the low nibble. -/
def decodeRowB (lo : Nat) (opcode d8 : Byte) (a16 : Word) : Instr :=
  match lo with
  | 0x0 => .bcs d8
  | 0x1 => .ldaIzy d8
  | 0x4 => .ldyZpx d8
  | 0x5 => .ldaZpx d8
  | 0x6 => .ldxZpy d8
  | 0x8 => .clv
  | 0x9 => .ldaAby a16
  | 0xA => .tsx
  | 0xC => .ldyAbx a16
  | 0xD => .ldaAbx a16
  | 0xE => .ldxAby a16
  | _ => .undocumented opcode

/-- Row Cx of the matrix of R140, selected by the low nibble. -/
def decodeRowC (lo : Nat) (opcode d8 : Byte) (a16 : Word) : Instr :=
  match lo with
  | 0x0 => .cpyImm d8
  | 0x1 => .cmpIzx d8
  | 0x4 => .cpyZp d8
  | 0x5 => .cmpZp d8
  | 0x6 => .decZp d8
  | 0x8 => .iny
  | 0x9 => .cmpImm d8
  | 0xA => .dex
  | 0xC => .cpyAbs a16
  | 0xD => .cmpAbs a16
  | 0xE => .decAbs a16
  | _ => .undocumented opcode

/-- Row Dx of the matrix of R140, selected by the low nibble. -/
def decodeRowD (lo : Nat) (opcode d8 : Byte) (a16 : Word) : Instr :=
  match lo with
  | 0x0 => .bne d8
  | 0x1 => .cmpIzy d8
  | 0x5 => .cmpZpx d8
  | 0x6 => .decZpx d8
  | 0x8 => .cld
  | 0x9 => .cmpAby a16
  | 0xD => .cmpAbx a16
  | 0xE => .decAbx a16
  | _ => .undocumented opcode

/-- Row Ex of the matrix of R140, selected by the low nibble. -/
def decodeRowE (lo : Nat) (opcode d8 : Byte) (a16 : Word) : Instr :=
  match lo with
  | 0x0 => .cpxImm d8
  | 0x1 => .sbcIzx d8
  | 0x4 => .cpxZp d8
  | 0x5 => .sbcZp d8
  | 0x6 => .incZp d8
  | 0x8 => .inx
  | 0x9 => .sbcImm d8
  | 0xA => .nop
  | 0xC => .cpxAbs a16
  | 0xD => .sbcAbs a16
  | 0xE => .incAbs a16
  | _ => .undocumented opcode

/-- Row Fx of the matrix of R140, selected by the low nibble. -/
def decodeRowF (lo : Nat) (opcode d8 : Byte) (a16 : Word) : Instr :=
  match lo with
  | 0x0 => .beq d8
  | 0x1 => .sbcIzy d8
  | 0x5 => .sbcZpx d8
  | 0x6 => .incZpx d8
  | 0x8 => .sed
  | 0x9 => .sbcAby a16
  | 0xD => .sbcAbx a16
  | 0xE => .incAbx a16
  | _ => .undocumented opcode

/-- The instruction of an opcode byte and the two bytes after it: R140's matrix, row by the high nibble. `d8` is byte 1 and `a16` the
little-endian word of bytes 1 and 2 (R120); a byte the format does not have is not looked at. -/
def assemble (opcode b1 b2 : Byte) : Instr :=
  let a16 := Machine.wordOf b1 b2
  let lo := opcode.toNat % 16
  match opcode.toNat / 16 with
  | 0x0 => decodeRow0 lo opcode b1 a16
  | 0x1 => decodeRow1 lo opcode b1 a16
  | 0x2 => decodeRow2 lo opcode b1 a16
  | 0x3 => decodeRow3 lo opcode b1 a16
  | 0x4 => decodeRow4 lo opcode b1 a16
  | 0x5 => decodeRow5 lo opcode b1 a16
  | 0x6 => decodeRow6 lo opcode b1 a16
  | 0x7 => decodeRow7 lo opcode b1 a16
  | 0x8 => decodeRow8 lo opcode b1 a16
  | 0x9 => decodeRow9 lo opcode b1 a16
  | 0xA => decodeRowA lo opcode b1 a16
  | 0xB => decodeRowB lo opcode b1 a16
  | 0xC => decodeRowC lo opcode b1 a16
  | 0xD => decodeRowD lo opcode b1 a16
  | 0xE => decodeRowE lo opcode b1 a16
  | _ => decodeRowF lo opcode b1 a16

/-- Reads one instruction off the front of a list of bytes: the instruction and the bytes after it, or why there is none. -/
def decode : List Byte → Except DecodeError (Instr × List Byte)
  | [] => .error .empty
  | op :: rest =>
    match instrLength op, rest with
    | 3, b1 :: b2 :: rest' => .ok (assemble op b1 b2, rest')
    | 2, b1 :: rest' => .ok (assemble op b1 0#8, rest')
    | 1, _ => .ok (assemble op 0#8 0#8, rest)
    | _, _ => .error (.truncated op)

/-- The instruction the decoder reads from a row of spec/opcode_table.json: the row's `nbits` low bits of `w`, first byte lowest,
every later byte of the instruction 0. -/
def decodeTableWord (nbits w : Nat) : Option Instr :=
  let bits := w % 2 ^ nbits
  match decode [BitVec.ofNat 8 bits, BitVec.ofNat 8 (bits / 256), BitVec.ofNat 8 (bits / 65536)] with
  | .ok (i, _) => some i
  | .error _ => none

/-- The bytes of an instruction: the opcode of R141 and the operand bytes of its format, a 16-bit operand low byte first
(R120, R71). -/
def encode : Instr → List Byte
  | .ldaImm d8 => [0xA9#8, d8]
  | .ldaZp d8 => [0xA5#8, d8]
  | .ldaZpx d8 => [0xB5#8, d8]
  | .ldaAbs a16 => [0xAD#8, Machine.loByte a16, Machine.hiByte a16]
  | .ldaAbx a16 => [0xBD#8, Machine.loByte a16, Machine.hiByte a16]
  | .ldaAby a16 => [0xB9#8, Machine.loByte a16, Machine.hiByte a16]
  | .ldaIzx d8 => [0xA1#8, d8]
  | .ldaIzy d8 => [0xB1#8, d8]
  | .ldxImm d8 => [0xA2#8, d8]
  | .ldxZp d8 => [0xA6#8, d8]
  | .ldxZpy d8 => [0xB6#8, d8]
  | .ldxAbs a16 => [0xAE#8, Machine.loByte a16, Machine.hiByte a16]
  | .ldxAby a16 => [0xBE#8, Machine.loByte a16, Machine.hiByte a16]
  | .ldyImm d8 => [0xA0#8, d8]
  | .ldyZp d8 => [0xA4#8, d8]
  | .ldyZpx d8 => [0xB4#8, d8]
  | .ldyAbs a16 => [0xAC#8, Machine.loByte a16, Machine.hiByte a16]
  | .ldyAbx a16 => [0xBC#8, Machine.loByte a16, Machine.hiByte a16]
  | .staZp d8 => [0x85#8, d8]
  | .staZpx d8 => [0x95#8, d8]
  | .staAbs a16 => [0x8D#8, Machine.loByte a16, Machine.hiByte a16]
  | .staAbx a16 => [0x9D#8, Machine.loByte a16, Machine.hiByte a16]
  | .staAby a16 => [0x99#8, Machine.loByte a16, Machine.hiByte a16]
  | .staIzx d8 => [0x81#8, d8]
  | .staIzy d8 => [0x91#8, d8]
  | .stxZp d8 => [0x86#8, d8]
  | .stxZpy d8 => [0x96#8, d8]
  | .stxAbs a16 => [0x8E#8, Machine.loByte a16, Machine.hiByte a16]
  | .styZp d8 => [0x84#8, d8]
  | .styZpx d8 => [0x94#8, d8]
  | .styAbs a16 => [0x8C#8, Machine.loByte a16, Machine.hiByte a16]
  | .tax => [0xAA#8]
  | .tay => [0xA8#8]
  | .txa => [0x8A#8]
  | .tya => [0x98#8]
  | .tsx => [0xBA#8]
  | .txs => [0x9A#8]
  | .pha => [0x48#8]
  | .php => [0x08#8]
  | .pla => [0x68#8]
  | .plp => [0x28#8]
  | .adcImm d8 => [0x69#8, d8]
  | .adcZp d8 => [0x65#8, d8]
  | .adcZpx d8 => [0x75#8, d8]
  | .adcAbs a16 => [0x6D#8, Machine.loByte a16, Machine.hiByte a16]
  | .adcAbx a16 => [0x7D#8, Machine.loByte a16, Machine.hiByte a16]
  | .adcAby a16 => [0x79#8, Machine.loByte a16, Machine.hiByte a16]
  | .adcIzx d8 => [0x61#8, d8]
  | .adcIzy d8 => [0x71#8, d8]
  | .sbcImm d8 => [0xE9#8, d8]
  | .sbcZp d8 => [0xE5#8, d8]
  | .sbcZpx d8 => [0xF5#8, d8]
  | .sbcAbs a16 => [0xED#8, Machine.loByte a16, Machine.hiByte a16]
  | .sbcAbx a16 => [0xFD#8, Machine.loByte a16, Machine.hiByte a16]
  | .sbcAby a16 => [0xF9#8, Machine.loByte a16, Machine.hiByte a16]
  | .sbcIzx d8 => [0xE1#8, d8]
  | .sbcIzy d8 => [0xF1#8, d8]
  | .cmpImm d8 => [0xC9#8, d8]
  | .cmpZp d8 => [0xC5#8, d8]
  | .cmpZpx d8 => [0xD5#8, d8]
  | .cmpAbs a16 => [0xCD#8, Machine.loByte a16, Machine.hiByte a16]
  | .cmpAbx a16 => [0xDD#8, Machine.loByte a16, Machine.hiByte a16]
  | .cmpAby a16 => [0xD9#8, Machine.loByte a16, Machine.hiByte a16]
  | .cmpIzx d8 => [0xC1#8, d8]
  | .cmpIzy d8 => [0xD1#8, d8]
  | .cpxImm d8 => [0xE0#8, d8]
  | .cpxZp d8 => [0xE4#8, d8]
  | .cpxAbs a16 => [0xEC#8, Machine.loByte a16, Machine.hiByte a16]
  | .cpyImm d8 => [0xC0#8, d8]
  | .cpyZp d8 => [0xC4#8, d8]
  | .cpyAbs a16 => [0xCC#8, Machine.loByte a16, Machine.hiByte a16]
  | .incZp d8 => [0xE6#8, d8]
  | .incZpx d8 => [0xF6#8, d8]
  | .incAbs a16 => [0xEE#8, Machine.loByte a16, Machine.hiByte a16]
  | .incAbx a16 => [0xFE#8, Machine.loByte a16, Machine.hiByte a16]
  | .inx => [0xE8#8]
  | .iny => [0xC8#8]
  | .decZp d8 => [0xC6#8, d8]
  | .decZpx d8 => [0xD6#8, d8]
  | .decAbs a16 => [0xCE#8, Machine.loByte a16, Machine.hiByte a16]
  | .decAbx a16 => [0xDE#8, Machine.loByte a16, Machine.hiByte a16]
  | .dex => [0xCA#8]
  | .dey => [0x88#8]
  | .andImm d8 => [0x29#8, d8]
  | .andZp d8 => [0x25#8, d8]
  | .andZpx d8 => [0x35#8, d8]
  | .andAbs a16 => [0x2D#8, Machine.loByte a16, Machine.hiByte a16]
  | .andAbx a16 => [0x3D#8, Machine.loByte a16, Machine.hiByte a16]
  | .andAby a16 => [0x39#8, Machine.loByte a16, Machine.hiByte a16]
  | .andIzx d8 => [0x21#8, d8]
  | .andIzy d8 => [0x31#8, d8]
  | .oraImm d8 => [0x09#8, d8]
  | .oraZp d8 => [0x05#8, d8]
  | .oraZpx d8 => [0x15#8, d8]
  | .oraAbs a16 => [0x0D#8, Machine.loByte a16, Machine.hiByte a16]
  | .oraAbx a16 => [0x1D#8, Machine.loByte a16, Machine.hiByte a16]
  | .oraAby a16 => [0x19#8, Machine.loByte a16, Machine.hiByte a16]
  | .oraIzx d8 => [0x01#8, d8]
  | .oraIzy d8 => [0x11#8, d8]
  | .eorImm d8 => [0x49#8, d8]
  | .eorZp d8 => [0x45#8, d8]
  | .eorZpx d8 => [0x55#8, d8]
  | .eorAbs a16 => [0x4D#8, Machine.loByte a16, Machine.hiByte a16]
  | .eorAbx a16 => [0x5D#8, Machine.loByte a16, Machine.hiByte a16]
  | .eorAby a16 => [0x59#8, Machine.loByte a16, Machine.hiByte a16]
  | .eorIzx d8 => [0x41#8, d8]
  | .eorIzy d8 => [0x51#8, d8]
  | .bitZp d8 => [0x24#8, d8]
  | .bitAbs a16 => [0x2C#8, Machine.loByte a16, Machine.hiByte a16]
  | .aslAcc => [0x0A#8]
  | .aslZp d8 => [0x06#8, d8]
  | .aslZpx d8 => [0x16#8, d8]
  | .aslAbs a16 => [0x0E#8, Machine.loByte a16, Machine.hiByte a16]
  | .aslAbx a16 => [0x1E#8, Machine.loByte a16, Machine.hiByte a16]
  | .lsrAcc => [0x4A#8]
  | .lsrZp d8 => [0x46#8, d8]
  | .lsrZpx d8 => [0x56#8, d8]
  | .lsrAbs a16 => [0x4E#8, Machine.loByte a16, Machine.hiByte a16]
  | .lsrAbx a16 => [0x5E#8, Machine.loByte a16, Machine.hiByte a16]
  | .rolAcc => [0x2A#8]
  | .rolZp d8 => [0x26#8, d8]
  | .rolZpx d8 => [0x36#8, d8]
  | .rolAbs a16 => [0x2E#8, Machine.loByte a16, Machine.hiByte a16]
  | .rolAbx a16 => [0x3E#8, Machine.loByte a16, Machine.hiByte a16]
  | .rorAcc => [0x6A#8]
  | .rorZp d8 => [0x66#8, d8]
  | .rorZpx d8 => [0x76#8, d8]
  | .rorAbs a16 => [0x6E#8, Machine.loByte a16, Machine.hiByte a16]
  | .rorAbx a16 => [0x7E#8, Machine.loByte a16, Machine.hiByte a16]
  | .jmpAbs a16 => [0x4C#8, Machine.loByte a16, Machine.hiByte a16]
  | .jmpInd a16 => [0x6C#8, Machine.loByte a16, Machine.hiByte a16]
  | .jsr a16 => [0x20#8, Machine.loByte a16, Machine.hiByte a16]
  | .rts => [0x60#8]
  | .bcc d8 => [0x90#8, d8]
  | .bcs d8 => [0xB0#8, d8]
  | .beq d8 => [0xF0#8, d8]
  | .bne d8 => [0xD0#8, d8]
  | .bmi d8 => [0x30#8, d8]
  | .bpl d8 => [0x10#8, d8]
  | .bvc d8 => [0x50#8, d8]
  | .bvs d8 => [0x70#8, d8]
  | .brk => [0x00#8]
  | .rti => [0x40#8]
  | .clc => [0x18#8]
  | .sec => [0x38#8]
  | .cli => [0x58#8]
  | .sei => [0x78#8]
  | .clv => [0xB8#8]
  | .cld => [0xD8#8]
  | .sed => [0xF8#8]
  | .nop => [0xEA#8]
  | .undocumented opcode => [opcode]

end Sys2Proof
end

