-- ==== Sys2Proof/Machine/Fetch.lean ====
section
/-! DEFINITION. Fetching the next instruction (30_encoding.md R121), and placing one where the next fetch finds it. -/

namespace Sys2Proof.Machine

/-- The opcode byte, then the operand bytes its length asks for, in address order (R121): the instruction they encode and the state
with PC past them. -/
def fetchInstruction (s : State) : Instr × State :=
  let o := fetch8 s
  match instrLength o.1 with
  | 3 =>
    let b1 := fetch8 o.2
    let b2 := fetch8 b1.2
    (assemble o.1 b1.1 b2.1, b2.2)
  | 2 =>
    let b1 := fetch8 o.2
    (assemble o.1 b1.1 0#8, b1.2)
  | _ => (assemble o.1 0#8 0#8, o.2)

/-- Whether a CPU address is a plain memory cell the loader or a program can have put a byte in: work memory or the program window
(20_memory.md R81, 64_cartridge_mapper.md R472). -/
def holdsCode (a : Word) : Bool := decide (a.toNat ≤ 0x1FFF) || decide (0x8000 ≤ a.toNat)

/-- A byte placed in the cell a CPU address of `holdsCode` reaches: no bus access, so no side effect (log 13). -/
def placeByte (a : Word) (b : Byte) (s : State) : State :=
  if a.toNat ≤ 0x1FFF then { s with ram := s.ram.write (a.toNat % Config.ramSize) b }
  else { s with cart := { s.cart with prg := s.cart.prg.write (prgIndex s.cart.prgSize a) b } }

/-- Where withFetchWord puts the instruction: PC, or 0x0200 where the three cells from PC on are not all plain memory (log 13). -/
def codeAddr (s : State) : Word :=
  if holdsCode s.pc && holdsCode (s.pc + 1#16) && holdsCode (s.pc + 2#16) then s.pc else 0x0200#16

/-- Three bytes placed where the next step fetches, with nothing pending that would make the step do anything else: no fault, no
interrupt request that the poll would answer (log 13). -/
def placeCode (b0 b1 b2 : Byte) (s : State) : State :=
  let a := codeAddr s
  placeByte (a + 2#16) b2 (placeByte (a + 1#16) b1 (placeByte a b0
    { s with pc := a, fault := false, nmiRequest := false, irqRequest := s.irqRequest && getFlag .i s.p }))

end Sys2Proof.Machine
end

