-- ==== Sys2Proof/Machine/Interrupt.lean ====
section
/-! DEFINITION. The interrupt poll and interrupt service (60_exceptions.md R290 to R294). -/

namespace Sys2Proof.Machine

/-- What the poll answers (R290). -/
inductive Pending where
  | none
  | nmi
  | irq
  deriving DecidableEq, Repr

/-- `PollInterrupt()` (R290): the non-maskable request first. -/
def pollInterrupt (s : State) : Pending :=
  if s.nmiRequest then .nmi
  else if s.irqRequest && !getFlag .i s.p then .irq
  else .none

/-- The NMI arm of the step (R280, R293): the request is cleared, the entry is taken, `rem` is INT_CYCLES. -/
def serviceNmi (s : State) : State :=
  let s1 := takeException nmiVector false { s with nmiRequest := false }
  { s1 with rem := s1.params.intCycles }

/-- The IRQ arm of the step (R280, R291): the request stays. -/
def serviceIrq (s : State) : State :=
  let s1 := takeException irqVector false s
  { s1 with rem := s1.params.intCycles }

end Sys2Proof.Machine
end

