-- ==== Sys2Proof/Machine/PictureDots.lean ====
section
/-! DEFINITION. One dot of the Picture Generator (63_picture_rendering.md R410 to R450). Every function here reads the cartridge's
pattern memory and mirroring mode and changes the Picture Generator alone; the interrupt request is `dotRequestsNmi`. -/

namespace Sys2Proof.Machine

/-- `render_line` of R411. -/
def renderLine (g : Picture) : Bool := decide (g.scanline ≤ 239) || decide (g.scanline = 261)

/-- `VblankStart()` without the request (R413). -/
def vblankStart (g : Picture) : Picture := { g with vblank := true, frameCount := g.frameCount + 1 }

/-- `FrameStartClear()` (R413). -/
def frameStartClear (g : Picture) : Picture :=
  { g with vblank := false, spriteZeroHit := false, spriteOverflow := false, sprites := [] }

/-- Part (1) of R411: the flag events. -/
def flagEvents (g : Picture) : Picture :=
  if g.scanline = 241 ∧ g.dot = 1 then vblankStart g
  else if g.scanline = 261 ∧ g.dot = 1 then frameStartClear g
  else g

/-- Whether the dot sets `nmi_request` (R413, 60_exceptions.md R292): scanline 241, dot 1, with CTRL.NMI set. -/
def dotRequestsNmi (g : Picture) : Bool := decide (g.scanline = 241) && decide (g.dot = 1) && ctrlNmi g

/-- `BgShift()` (R422). -/
def bgShift (g : Picture) : Picture :=
  { g with bgLo := g.bgLo <<< 1, bgHi := g.bgHi <<< 1, atLo := g.atLo <<< 1, atHi := g.atHi <<< 1 }

/-- The low half of a shifter replaced (R423). -/
def reloadLow (reg : BitVec 16) (low : Byte) : BitVec 16 := (reg &&& 0xFF00#16) ||| low.setWidth 16

/-- `BgReload()` (R423). -/
def bgReload (g : Picture) : Picture :=
  { g with
    bgLo := reloadLow g.bgLo g.patLoLatch
    bgHi := reloadLow g.bgHi g.patHiLatch
    atLo := reloadLow g.atLo (if g.atLatch.getLsbD 0 then 0xFF#8 else 0x00#8)
    atHi := reloadLow g.atHi (if g.atLatch.getLsbD 1 then 0xFF#8 else 0x00#8) }

/-- The dots that shift (R411 part (2)). -/
def shiftDot (d : Nat) : Bool := (decide (2 ≤ d) && decide (d ≤ 257)) || (decide (322 ≤ d) && decide (d ≤ 337))

/-- The dots that reload (R411 part (2)). -/
def reloadDot (d : Nat) : Bool :=
  (decide (9 ≤ d) && decide (d ≤ 257) && decide (d % 8 = 1)) || decide (d = 329) || decide (d = 337)

/-- Part (2) of R411: the background shifters. -/
def shifters (g : Picture) : Picture :=
  if renderingEnabled g && renderLine g then
    let g1 := if shiftDot g.dot then bgShift g else g
    if reloadDot g.dot then bgReload g1 else g1
  else g

/-- A two-bit number from its high and low bit. -/
def twoBits (h l : Bool) : BitVec 2 := BitVec.ofBool h ++ BitVec.ofBool l

/-- The background pixel and its palette number at column `X` (R445): zero where the layer is off or clipped. -/
def backgroundPixel (g : Picture) (X : Nat) : BitVec 2 × BitVec 2 :=
  if maskBg g && (decide (8 ≤ X) || maskBgl g) then
    let b := 15 - g.fineX.toNat
    (twoBits (g.bgHi.getLsbD b) (g.bgLo.getLsbD b), twoBits (g.atHi.getLsbD b) (g.atLo.getLsbD b))
  else (0#2, 0#2)

/-- The pixel value of a sprite at column `X`, 0 outside its eight columns (R445). -/
def spriteBits (e : SpriteEntry) (X : Nat) : BitVec 2 :=
  if e.x.toNat ≤ X ∧ X - e.x.toNat ≤ 7 then
    let b := 7 - (X - e.x.toNat)
    twoBits (e.hi.getLsbD b) (e.lo.getLsbD b)
  else 0#2

/-- The first sprite of the line buffer with an opaque pixel at column `X`, and that pixel (R445). -/
def firstOpaque (X : Nat) : List SpriteEntry → Option (BitVec 2 × SpriteEntry)
  | [] => none
  | e :: es => if spriteBits e X = 0#2 then firstOpaque X es else some (spriteBits e X, e)

/-- The sprite pixel at column `X`: nothing where the layer is off or clipped (R445). -/
def spritePixel (g : Picture) (X : Nat) : Option (BitVec 2 × SpriteEntry) :=
  if maskSp g && (decide (8 ≤ X) || maskSpl g) then firstOpaque X g.sprites else none

/-- A background palette index (R445). -/
def backgroundIndex (pal pix : BitVec 2) : Nat := (pal ++ pix).toNat

/-- A sprite palette index (R445). -/
def spriteIndex (e : SpriteEntry) (pix : BitVec 2) : Nat := 16 + (e.attr.extractLsb' 0 2 ++ pix).toNat

/-- The palette index of the pixel by priority (R445, R447). -/
def pixelIndex (bg : BitVec 2 × BitVec 2) (sp : Option (BitVec 2 × SpriteEntry)) : Nat :=
  match sp with
  | none => if bg.1 = 0#2 then 0 else backgroundIndex bg.2 bg.1
  | some (pix, e) =>
    if bg.1 = 0#2 then spriteIndex e pix
    else if e.attr.getLsbD 5 then backgroundIndex bg.2 bg.1
    else spriteIndex e pix

/-- Whether the pixel sets STATUS.S (R446). -/
def hitsSpriteZero (bg : BitVec 2 × BitVec 2) (sp : Option (BitVec 2 × SpriteEntry)) (X : Nat) : Bool :=
  match sp with
  | none => false
  | some (_, e) => bg.1 != 0#2 && e.isZero && X != 255

/-- The colour the pixel writes: the palette entry, ANDed with 0x30 under MASK.GREY (R445). -/
def pixelColour (g : Picture) (idx : Nat) : Byte :=
  let c := g.pal.read idx
  if maskGrey g then c &&& 0x30#8 else c

/-- `Pixel(L, X)` (R445, R446). -/
def pixel (L X : Nat) (g : Picture) : Picture :=
  let bg := backgroundPixel g X
  let sp := spritePixel g X
  { g with
    spriteZeroHit := g.spriteZeroHit || hitsSpriteZero bg sp X
    fb := fbWrite g.fb L X (pixelColour g (pixelIndex bg sp)) }

/-- Part (3) of R411: the pixel. -/
def pixelPart (g : Picture) : Picture :=
  if g.scanline ≤ 239 ∧ 1 ≤ g.dot ∧ g.dot ≤ 256 then pixel g.scanline (g.dot - 1) g else g

/-- `IncrementCoarseX()` on `v` (R425). -/
def incrementCoarseX (v : BitVec 15) : BitVec 15 :=
  if v &&& 0x001F#15 = 31#15 then (v &&& 0x7FE0#15) ^^^ 0x0400#15 else v + 1#15

/-- `IncrementY()` on `v` (R425). -/
def incrementY (v : BitVec 15) : BitVec 15 :=
  if v &&& 0x7000#15 = 0x7000#15 then
    let v1 := v &&& 0x0FFF#15
    let cy := (v1 >>> 5) &&& 0x1F#15
    if cy = 29#15 then (v1 ^^^ 0x0800#15) &&& 0x7C1F#15
    else if cy = 31#15 then v1 &&& 0x7C1F#15
    else (v1 &&& 0x7C1F#15) ||| ((cy + 1#15) <<< 5)
  else v + 0x1000#15

/-- `CopyHorizontal()` (R426): `v` from `v` and `t`. -/
def copyHorizontal (v t : BitVec 15) : BitVec 15 := (v &&& 0x7BE0#15) ||| (t &&& 0x041F#15)

/-- `CopyVertical()` (R427). -/
def copyVertical (v t : BitVec 15) : BitVec 15 := (v &&& 0x041F#15) ||| (t &&& 0x7BE0#15)

/-- The nametable address of the tile `v` selects (R424). -/
def nametableAddr (v : BitVec 15) : BitVec 14 := 0x2000#14 ||| (v &&& 0x0FFF#15).setWidth 14

/-- The attribute address of the tile `v` selects (R424). -/
def attributeAddr (v : BitVec 15) : BitVec 14 :=
  0x23C0#14 ||| (v &&& 0x0C00#15).setWidth 14 ||| ((v >>> 4) &&& 0x38#15).setWidth 14 ||| ((v >>> 2) &&& 0x07#15).setWidth 14

/-- The two bits of an attribute byte that serve the tile `v` selects (R424). -/
def attributeBits (v : BitVec 15) (b : Byte) : BitVec 2 :=
  let s := ((v >>> 4) &&& 4#15) ||| (v &&& 2#15)
  (b >>> s.toNat).setWidth 2

/-- The pattern address of the row fine Y selects, plane 0 (R424). -/
def patternAddr (g : Picture) : BitVec 14 :=
  (if ctrlBgt g then 0x1000#14 else 0#14) ||| (g.ntLatch.setWidth 14 <<< 4) ||| ((g.v >>> 12) &&& 7#15).setWidth 14

/-- `BgFetchPhase(p)` (R424). -/
def bgFetchPhase (chr : Memory) (mirroring : Mirroring) (p : Nat) (g : Picture) : Picture :=
  match p with
  | 0 => { g with ntLatch := ppuRead chr mirroring g (nametableAddr g.v) }
  | 2 => { g with atLatch := attributeBits g.v (ppuRead chr mirroring g (attributeAddr g.v)) }
  | 4 => { g with patLoLatch := ppuRead chr mirroring g (patternAddr g) }
  | 6 => { g with patHiLatch := ppuRead chr mirroring g (patternAddr g ||| 8#14) }
  | 7 => { g with v := incrementCoarseX g.v }
  | _ => g

/-- The dots of the fetch cadence (R411 part (4)). -/
def fetchDot (d : Nat) : Bool := (decide (1 ≤ d) && decide (d ≤ 256)) || (decide (321 ≤ d) && decide (d ≤ 336))

/-- Part (4) of R411: background fetches and scroll registers. -/
def fetches (chr : Memory) (mirroring : Mirroring) (g : Picture) : Picture :=
  if renderingEnabled g && renderLine g then
    let g1 := if fetchDot g.dot then bgFetchPhase chr mirroring ((g.dot - 1) % 8) g else g
    let g2 := if g.dot = 256 then { g1 with v := incrementY g1.v } else g1
    let g3 := if g.dot = 257 then { g2 with v := copyHorizontal g2.v g2.t } else g2
    if g.scanline = 261 ∧ 280 ≤ g.dot ∧ g.dot ≤ 304 then { g3 with v := copyVertical g3.v g3.t } else g3
  else g

/-- `SpritePatternAddr(tile, row, H)` (R443). -/
def spritePatternAddr (g : Picture) (tile : Byte) (row H : Nat) : BitVec 14 :=
  let r := BitVec.ofNat 14 row
  if H = 8 then (if ctrlSpt g then 0x1000#14 else 0#14) ||| (tile.setWidth 14 <<< 4) ||| r
  else ((tile &&& 1#8).setWidth 14 <<< 12) ||| (((tile &&& 0xFE#8).setWidth 14 ||| (r >>> 3)) <<< 4) ||| (r &&& 7#14)

/-- The height of a sprite, from CTRL.SPH (R440). -/
def spriteHeight (g : Picture) : Nat := if ctrlSph g then 16 else 8

/-- `SpriteFetch(n, row, H)` (R442). -/
def spriteFetch (chr : Memory) (g : Picture) (H n row : Nat) : SpriteEntry :=
  let attr := g.oam.read (4 * n + 2)
  let row' := if attr.getLsbD 7 then H - 1 - row else row
  let addr := spritePatternAddr g (g.oam.read (4 * n + 1)) row' H
  let lo := readChr chr addr
  let hi := readChr chr (addr + 8#14)
  { x := g.oam.read (4 * n + 3), attr := attr,
    lo := if attr.getLsbD 6 then rev8 lo else lo,
    hi := if attr.getLsbD 6 then rev8 hi else hi,
    isZero := decide (n = 0) }

/-- Whether sprite entry `n` is in range on scanline `L` (R440): `0 <= L - y < H` as integers. -/
def spriteInRange (g : Picture) (L H n : Nat) : Bool :=
  decide ((g.oam.read (4 * n)).toNat ≤ L) && decide (L - (g.oam.read (4 * n)).toNat < H)

/-- The entries in range, in table order (R440). -/
def spritesInRange (g : Picture) (L H : Nat) : List Nat := (List.range 64).filter (spriteInRange g L H)

/-- `SpriteEval(L)` (R440, R441): the first eight in range fill the line buffer; a ninth sets STATUS.O. -/
def spriteEval (chr : Memory) (L : Nat) (g : Picture) : Picture :=
  if renderingEnabled g then
    let H := spriteHeight g
    let inRange := spritesInRange g L H
    { g with
      sprites := (inRange.take 8).map (fun n => spriteFetch chr g H n (L - (g.oam.read (4 * n)).toNat))
      spriteOverflow := g.spriteOverflow || decide (8 < inRange.length) }
  else { g with sprites := [] }

/-- Part (5) of R411: sprites for the next scanline. -/
def spritePart (chr : Memory) (g : Picture) : Picture :=
  if g.scanline ≤ 239 ∧ g.dot = 257 then spriteEval chr g.scanline g else g

/-- `AdvancePosition()` (R412). -/
def advancePosition (g : Picture) : Picture :=
  if g.dot + 1 = 341 then
    { g with dot := 0, scanline := if g.scanline + 1 = 262 then 0 else g.scanline + 1 }
  else { g with dot := g.dot + 1 }

/-- `PpuDot()` (R411): the six parts in their order. -/
def ppuDot (chr : Memory) (mirroring : Mirroring) (g : Picture) : Picture :=
  advancePosition (spritePart chr (fetches chr mirroring (pixelPart (shifters (flagEvents g)))))

end Sys2Proof.Machine
end

