-- ==== Sys2Proof/Machine/Tick.lean ====
section
/-! DEFINITION. The tick (61_system_bus.md R330, R331). -/

namespace Sys2Proof.Machine

/-- One `PpuDot()` of the machine: the Picture Generator's dot, and the request it may raise (R411, R413). -/
def tickDot (s : State) : State :=
  { s with ppu := ppuDot s.chr s.cart.mirroring s.ppu, nmiRequest := s.nmiRequest || dotRequestsNmi s.ppu }

/-- One processor cycle of the tick: CYC, `rem`, and three dots (R330). -/
def tickCycle (s : State) : State :=
  let s1 := { s with cyc := s.cyc + 1, rem := s.rem - 1 }
  tickDot (tickDot (tickDot s1))

/-- `Tick(n)` (R330). -/
def tick : Nat → State → State
  | 0, s => s
  | n + 1, s => tick n (tickCycle s)

/-- The end of a step that ran to its end: the pending stall is added to the cost `rem` holds, and the tick runs the sum
(60_exceptions.md R280, R281). -/
def finishStep (pending : Nat) (s : State) : State :=
  let cost := s.rem + pending
  tick cost { s with rem := cost }

/-- The end of a step whose instruction is over (R280), or that raised FatalDecodeError: then the stall is put back and no tick runs
(R282). -/
def completeStep (pending : Nat) (s : State) : State :=
  if s.fault then { s with dmaStall := pending } else finishStep pending s

end Sys2Proof.Machine
end

