-- ==== Sys2Proof/Machine/Step.lean ====
section
/-! DEFINITION. The step of the machine (60_exceptions.md R280), and withFetchWord. -/

namespace Sys2Proof.Machine

/-- One step (R280): an interrupt entry or one instruction, then the tick of its cost and the stall that was pending (R281). A state whose
fault latch is set has no step (R282, log 6). -/
def step (s : State) : Host.Outcome State Fault Refusal :=
  if s.fault then .fault (.fatalDecodeError s.faultOpcode s.faultPc)
  else
    let s0 := { s with dmaStall := 0 }
    match pollInterrupt s0 with
    | .nmi => .next (finishStep s.dmaStall (serviceNmi s0))
    | .irq => .next (finishStep s.dmaStall (serviceIrq s0))
    | .none =>
      let f := fetchInstruction s0
      match exec f.1 f.2 with
      | .next t => .next (completeStep s.dmaStall t)
      | .fault r => .fault r
      | .refused r => .refused r

/-- The state with an instruction placed where `step` fetches its next one (log 1, log 13): the `nbits` low bits of `w`, first byte
lowest, the bytes after them 0. -/
def State.withFetchWord (s : State) (nbits w : Nat) : State :=
  let bits := w % 2 ^ nbits
  placeCode (BitVec.ofNat 8 bits) (BitVec.ofNat 8 (bits / 256)) (BitVec.ofNat 8 (bits / 65536)) s

end Sys2Proof.Machine
end

