-- ==== Sys2Proof/Machine/Cycles.lean ====
section
/-! DEFINITION. The base cycles of R141, by access class and addressing mode (30_encoding.md R123, R138, R141). exec's meanings carry the
number of their own row; Sys2Proof/Laws/Exec.lean proves that the two agree. -/

namespace Sys2Proof.Machine

/-- Base cycles of a read-class instruction on memory. -/
def readCycles : AddrMode → Nat
  | .zp _ => 3
  | .zpx _ => 4
  | .zpy _ => 4
  | .abs _ => 4
  | .abx _ => 4
  | .aby _ => 4
  | .izx _ => 6
  | .izy _ => 5

/-- Base cycles of a write-class instruction: the indexed modes already include the extra cycle. -/
def writeCycles : AddrMode → Nat
  | .zp _ => 3
  | .zpx _ => 4
  | .zpy _ => 4
  | .abs _ => 4
  | .abx _ => 5
  | .aby _ => 5
  | .izx _ => 6
  | .izy _ => 6

/-- Base cycles of a read-modify-write instruction on memory; no row of R141 has the modes of the last four arms. -/
def modifyCycles : AddrMode → Nat
  | .zp _ => 5
  | .zpx _ => 6
  | .abs _ => 6
  | .abx _ => 7
  | .zpy _ => 6
  | .aby _ => 7
  | .izx _ => 8
  | .izy _ => 8

/-- Base cycles of a read-class instruction. -/
def sourceCycles : Source → Nat
  | .imm _ => 2
  | .mem m => readCycles m

/-- Base cycles of a shift or rotate. -/
def targetCycles : Target → Nat
  | .acc => 2
  | .mem m => modifyCycles m

/-- The `cyc` column of R141. An undocumented byte has no row there: its step charges nothing (60_exceptions.md R282). -/
def baseCycles : Form → Nat
  | .lda src | .ldx src | .ldy src => sourceCycles src
  | .adc src | .sbc src | .and src | .ora src | .eor src => sourceCycles src
  | .cmp src | .cpx src | .cpy src => sourceCycles src
  | .sta m | .stx m | .sty m => writeCycles m
  | .inc m | .dec m => modifyCycles m
  | .bit m => readCycles m
  | .asl t | .lsr t | .rol t | .ror t => targetCycles t
  | .tax | .tay | .txa | .tya | .tsx | .txs => 2
  | .inx | .iny | .dex | .dey => 2
  | .clc | .sec | .cli | .sei | .clv | .cld | .sed | .nop => 2
  | .bcc _ | .bcs _ | .beq _ | .bne _ | .bmi _ | .bpl _ | .bvc _ | .bvs _ => 2
  | .pha | .php => 3
  | .pla | .plp => 4
  | .jmpAbs _ => 3
  | .jmpInd _ => 5
  | .jsr _ => 6
  | .rts | .rti => 6
  | .brk => 7
  | .undocumented _ => 0

end Sys2Proof.Machine
end

