-- ==== Sys2Proof/Machine/Reset.lean ====
section
/-! DEFINITION. The reset sequence (70_reset_and_hazards.md R510). -/

namespace Sys2Proof.Machine

/-- The 28 palette cells that exist (10_state.md R48), all holding `b`. -/
def fillPalette (b : Byte) : Memory :=
  if b = blankByte then [] else ((List.range 32).filter (fun i => decide (i < 16) || i % 4 != 0)).map (fun i => (i, b))

/-- The Picture Generator before the reset tick (R510), its memories holding RAM_INIT. -/
def powerOnPicture (ramInit : Byte) : Picture :=
  { resetPicture with
    dot := 0
    oam := Memory.fill Config.oamSize ramInit
    pal := fillPalette (ramInit &&& 0x3F#8)
    vram := Memory.fill Config.vramSize ramInit }

/-- The state the reset sequence has established before it reads the vector (R510). The cartridge, the parameters and the button
inputs stay; fault_opcode and fault_pc become 0 (log 4, log 15). -/
def resetRegisters (s : State) : State :=
  { State.reset with
    cyc := 0
    ram := Memory.fill Config.ramSize s.params.ramInit
    ppu := powerOnPicture s.params.ramInit
    chr := if s.cart.chrIsRam then s.cart.chrImage else s.chr
    cart := s.cart
    buttons := s.buttons
    buttons2 := s.buttons2
    params := s.params }

/-- `Reset()` (R510): the registers, PC from the reset vector, and the tick of RESET_CYCLES. DESIGN CHOICE (log 19): the dots of that tick
draw PAL[0] into FB as any dots do, so that where RAM_INIT & 0x3F is not 0 the cells they reach are not the 0 of 10_state.md R56. -/
def resetSequence (s : State) : State :=
  let s1 := resetRegisters s
  let v := memRead16 resetVector s1
  tick s1.params.resetCycles (setPc v.1 v.2)

end Sys2Proof.Machine
end

