-- ==== Sys2Proof/Machine/HostInterface.lean ====
section
/-! DEFINITION. What the outside world may do to the machine (61_system_bus.md R340): load a cartridge, reset, change the buttons.
None of these is a step. -/

namespace Sys2Proof.Machine

/-- What the cartridge loader supplies (64_cartridge_mapper.md R470). `chr = none`: the cartridge supplies no pattern bank.
`mirroring = none`: a flag that has neither of the two values. -/
structure CartridgeImage where
  mapperId : Nat
  prg : List Byte
  chr : Option (List Byte)
  chrIsRam : Bool
  mirroring : Option Mirroring
  deriving DecidableEq, Repr

/-- The machine just loaded: the reset sequence applied to a machine with this cartridge, CHR holding what the loader supplied. -/
def startSession (params : Params) (cart : Cartridge) : State :=
  resetSequence { State.reset with params := params, cart := cart, chr := cart.chrImage }

/-- Loading a cartridge and resetting (R470, R471, R510), or the refusal that there is no machine (60_exceptions.md R283). -/
def loadCartridge (params : Params) (image : CartridgeImage) : StepResult :=
  if image.mapperId ≠ 0 then .refused (.unsupportedMapper image.mapperId)
  else if image.prg.length ≠ 16384 ∧ image.prg.length ≠ 32768 then .refused (.badPrgLength image.prg.length)
  else
    match image.mirroring with
    | none => .refused .badMirroring
    | some m =>
      let size := if image.prg.length = 16384 then PrgSize.k16 else PrgSize.k32
      match image.chr with
      | none =>
        .next (startSession params
          { prgSize := size, prg := Memory.ofBytes 0 image.prg, chrImage := Memory.fill Config.chrSize params.ramInit,
            chrIsRam := true, mirroring := m })
      | some bytes =>
        if bytes.length ≠ Config.chrSize then .refused (.badChrLength bytes.length)
        else
          .next (startSession params
            { prgSize := size, prg := Memory.ofBytes 0 image.prg, chrImage := Memory.ofBytes 0 bytes,
              chrIsRam := image.chrIsRam, mirroring := m })

/-- The input backend changes the snapshot of the buttons (65_input_latch.md R491, R497). -/
def setButtons (b b2 : Byte) (s : State) : State := { s with buttons := b, buttons2 := b2 }

end Sys2Proof.Machine
end

