-- ==== Sys2Proof/Safety.lean ====
section
/-! DEFINITION. The words the statements are made of: reading one byte, which flags an instruction writes, the invariant of the machine
between steps, and the states a session can reach. -/

namespace Sys2Proof.Machine

/-- The byte a read of a CPU address returns (61_system_bus.md R322). -/
def peek (a : Word) (s : State) : Byte := (memRead a s).1

/-- The RAM cell of the stack a stack pointer names (41_stack.md R180). -/
def stackCell (sp : Byte) : Nat := 0x100 + sp.toNat

/-- The flags of `q` are the listed ones, and every flag that is not listed is that of `p` (10_state.md R28). -/
def FlagsAre (p q : Byte) (written : List (Flag × Bool)) : Prop :=
  ∀ f, getFlag f q = (written.lookup f).getD (getFlag f p)

/-- The addresses whose read changes state (20_memory.md R76). -/
def readHasSideEffect (a : Word) (s : State) : Bool :=
  (decide (0x2000 ≤ a.toNat) && decide (a.toNat ≤ 0x3FFF) && (decide (a.toNat % 8 = 2) || decide (a.toNat % 8 = 7)))
    || decide (a = 0x4016#16) || (decide (a = 0x4017#16) && s.params.pad2Present)

/-- Two CPU addresses that are the same cell of work memory (R81): no other cell takes a plain store. -/
def sameCell (a b : Word) : Bool :=
  decide (a.toNat ≤ 0x1FFF) && decide (b.toNat ≤ 0x1FFF) && decide (a.toNat % Config.ramSize = b.toNat % Config.ramSize)

/-- The register number of a CPU address of the picture register window (R82). -/
def picRegister (a : Word) : Option Nat :=
  if 0x2000 ≤ a.toNat ∧ a.toNat ≤ 0x3FFF then some (a.toNat % 8) else none

/-- The forms that write memory. -/
def formStores : Form → Bool
  | .sta _ | .stx _ | .sty _ | .inc _ | .dec _ => true
  | .asl (.mem _) | .lsr (.mem _) | .rol (.mem _) | .ror (.mem _) => true
  | .pha | .php | .jsr _ | .brk => true
  | .lda _ | .ldx _ | .ldy _ | .tax | .tay | .txa | .tya | .tsx | .txs => false
  | .pla | .plp | .adc _ | .sbc _ | .cmp _ | .cpx _ | .cpy _ | .inx | .iny | .dex | .dey => false
  | .and _ | .ora _ | .eor _ | .bit _ | .asl .acc | .lsr .acc | .rol .acc | .ror .acc => false
  | .jmpAbs _ | .jmpInd _ | .rts | .rti => false
  | .bcc _ | .bcs _ | .beq _ | .bne _ | .bmi _ | .bpl _ | .bvc _ | .bvs _ => false
  | .clc | .sec | .cli | .sei | .clv | .cld | .sed | .nop | .undocumented _ => false

/-! The rows of 30_encoding.md R141, by family: opcode byte, length, base cycles, and the instruction with operand bytes `b1` and `b2`. -/

/-- A row: opcode, length, base cycles, mnemonic and mode. -/
abbrev OpcodeRow := Byte × Nat × Nat × Form

/-- Loads (R160 to R162). -/
def loadRows (b1 b2 : Byte) : List OpcodeRow :=
  [(0xA9#8, 2, 2, .lda (.imm b1)), (0xA5#8, 2, 3, .lda (.mem (.zp b1))), (0xB5#8, 2, 4, .lda (.mem (.zpx b1))),
    (0xAD#8, 3, 4, .lda (.mem (.abs (wordOf b1 b2)))), (0xBD#8, 3, 4, .lda (.mem (.abx (wordOf b1 b2)))), (0xB9#8, 3, 4, .lda (.mem (.aby (wordOf b1 b2)))),
    (0xA1#8, 2, 6, .lda (.mem (.izx b1))), (0xB1#8, 2, 5, .lda (.mem (.izy b1))), (0xA2#8, 2, 2, .ldx (.imm b1)),
    (0xA6#8, 2, 3, .ldx (.mem (.zp b1))), (0xB6#8, 2, 4, .ldx (.mem (.zpy b1))), (0xAE#8, 3, 4, .ldx (.mem (.abs (wordOf b1 b2)))),
    (0xBE#8, 3, 4, .ldx (.mem (.aby (wordOf b1 b2)))), (0xA0#8, 2, 2, .ldy (.imm b1)), (0xA4#8, 2, 3, .ldy (.mem (.zp b1))),
    (0xB4#8, 2, 4, .ldy (.mem (.zpx b1))), (0xAC#8, 3, 4, .ldy (.mem (.abs (wordOf b1 b2)))), (0xBC#8, 3, 4, .ldy (.mem (.abx (wordOf b1 b2))))]

/-- Stores (R163 to R165). -/
def storeRows (b1 b2 : Byte) : List OpcodeRow :=
  [(0x85#8, 2, 3, .sta (.zp b1)), (0x95#8, 2, 4, .sta (.zpx b1)), (0x8D#8, 3, 4, .sta (.abs (wordOf b1 b2))),
    (0x9D#8, 3, 5, .sta (.abx (wordOf b1 b2))), (0x99#8, 3, 5, .sta (.aby (wordOf b1 b2))), (0x81#8, 2, 6, .sta (.izx b1)),
    (0x91#8, 2, 6, .sta (.izy b1)), (0x86#8, 2, 3, .stx (.zp b1)), (0x96#8, 2, 4, .stx (.zpy b1)),
    (0x8E#8, 3, 4, .stx (.abs (wordOf b1 b2))), (0x84#8, 2, 3, .sty (.zp b1)), (0x94#8, 2, 4, .sty (.zpx b1)),
    (0x8C#8, 3, 4, .sty (.abs (wordOf b1 b2)))]

/-- The implied-mode instructions. -/
def impliedRows : List OpcodeRow :=
  [(0xAA#8, 1, 2, .tax), (0xA8#8, 1, 2, .tay), (0x8A#8, 1, 2, .txa),
    (0x98#8, 1, 2, .tya), (0xBA#8, 1, 2, .tsx), (0x9A#8, 1, 2, .txs),
    (0x48#8, 1, 3, .pha), (0x08#8, 1, 3, .php), (0x68#8, 1, 4, .pla),
    (0x28#8, 1, 4, .plp), (0xE8#8, 1, 2, .inx), (0xC8#8, 1, 2, .iny),
    (0xCA#8, 1, 2, .dex), (0x88#8, 1, 2, .dey), (0x60#8, 1, 6, .rts),
    (0x00#8, 1, 7, .brk), (0x40#8, 1, 6, .rti), (0x18#8, 1, 2, .clc),
    (0x38#8, 1, 2, .sec), (0x58#8, 1, 2, .cli), (0x78#8, 1, 2, .sei),
    (0xB8#8, 1, 2, .clv), (0xD8#8, 1, 2, .cld), (0xF8#8, 1, 2, .sed),
    (0xEA#8, 1, 2, .nop)]

/-- ADC and SBC (R191, R192). -/
def addRows (b1 b2 : Byte) : List OpcodeRow :=
  [(0x69#8, 2, 2, .adc (.imm b1)), (0x65#8, 2, 3, .adc (.mem (.zp b1))), (0x75#8, 2, 4, .adc (.mem (.zpx b1))),
    (0x6D#8, 3, 4, .adc (.mem (.abs (wordOf b1 b2)))), (0x7D#8, 3, 4, .adc (.mem (.abx (wordOf b1 b2)))), (0x79#8, 3, 4, .adc (.mem (.aby (wordOf b1 b2)))),
    (0x61#8, 2, 6, .adc (.mem (.izx b1))), (0x71#8, 2, 5, .adc (.mem (.izy b1))), (0xE9#8, 2, 2, .sbc (.imm b1)),
    (0xE5#8, 2, 3, .sbc (.mem (.zp b1))), (0xF5#8, 2, 4, .sbc (.mem (.zpx b1))), (0xED#8, 3, 4, .sbc (.mem (.abs (wordOf b1 b2)))),
    (0xFD#8, 3, 4, .sbc (.mem (.abx (wordOf b1 b2)))), (0xF9#8, 3, 4, .sbc (.mem (.aby (wordOf b1 b2)))), (0xE1#8, 2, 6, .sbc (.mem (.izx b1))),
    (0xF1#8, 2, 5, .sbc (.mem (.izy b1)))]

/-- Compares (R193 to R195). -/
def compareRows (b1 b2 : Byte) : List OpcodeRow :=
  [(0xC9#8, 2, 2, .cmp (.imm b1)), (0xC5#8, 2, 3, .cmp (.mem (.zp b1))), (0xD5#8, 2, 4, .cmp (.mem (.zpx b1))),
    (0xCD#8, 3, 4, .cmp (.mem (.abs (wordOf b1 b2)))), (0xDD#8, 3, 4, .cmp (.mem (.abx (wordOf b1 b2)))), (0xD9#8, 3, 4, .cmp (.mem (.aby (wordOf b1 b2)))),
    (0xC1#8, 2, 6, .cmp (.mem (.izx b1))), (0xD1#8, 2, 5, .cmp (.mem (.izy b1))), (0xE0#8, 2, 2, .cpx (.imm b1)),
    (0xE4#8, 2, 3, .cpx (.mem (.zp b1))), (0xEC#8, 3, 4, .cpx (.mem (.abs (wordOf b1 b2)))), (0xC0#8, 2, 2, .cpy (.imm b1)),
    (0xC4#8, 2, 3, .cpy (.mem (.zp b1))), (0xCC#8, 3, 4, .cpy (.mem (.abs (wordOf b1 b2))))]

/-- INC and DEC (R196, R199). -/
def modifyRows (b1 b2 : Byte) : List OpcodeRow :=
  [(0xE6#8, 2, 5, .inc (.zp b1)), (0xF6#8, 2, 6, .inc (.zpx b1)), (0xEE#8, 3, 6, .inc (.abs (wordOf b1 b2))),
    (0xFE#8, 3, 7, .inc (.abx (wordOf b1 b2))), (0xC6#8, 2, 5, .dec (.zp b1)), (0xD6#8, 2, 6, .dec (.zpx b1)),
    (0xCE#8, 3, 6, .dec (.abs (wordOf b1 b2))), (0xDE#8, 3, 7, .dec (.abx (wordOf b1 b2)))]

/-- Logic and BIT (R210 to R213). -/
def logicRows (b1 b2 : Byte) : List OpcodeRow :=
  [(0x29#8, 2, 2, .and (.imm b1)), (0x25#8, 2, 3, .and (.mem (.zp b1))), (0x35#8, 2, 4, .and (.mem (.zpx b1))),
    (0x2D#8, 3, 4, .and (.mem (.abs (wordOf b1 b2)))), (0x3D#8, 3, 4, .and (.mem (.abx (wordOf b1 b2)))), (0x39#8, 3, 4, .and (.mem (.aby (wordOf b1 b2)))),
    (0x21#8, 2, 6, .and (.mem (.izx b1))), (0x31#8, 2, 5, .and (.mem (.izy b1))), (0x09#8, 2, 2, .ora (.imm b1)),
    (0x05#8, 2, 3, .ora (.mem (.zp b1))), (0x15#8, 2, 4, .ora (.mem (.zpx b1))), (0x0D#8, 3, 4, .ora (.mem (.abs (wordOf b1 b2)))),
    (0x1D#8, 3, 4, .ora (.mem (.abx (wordOf b1 b2)))), (0x19#8, 3, 4, .ora (.mem (.aby (wordOf b1 b2)))), (0x01#8, 2, 6, .ora (.mem (.izx b1))),
    (0x11#8, 2, 5, .ora (.mem (.izy b1))), (0x49#8, 2, 2, .eor (.imm b1)), (0x45#8, 2, 3, .eor (.mem (.zp b1))),
    (0x55#8, 2, 4, .eor (.mem (.zpx b1))), (0x4D#8, 3, 4, .eor (.mem (.abs (wordOf b1 b2)))), (0x5D#8, 3, 4, .eor (.mem (.abx (wordOf b1 b2)))),
    (0x59#8, 3, 4, .eor (.mem (.aby (wordOf b1 b2)))), (0x41#8, 2, 6, .eor (.mem (.izx b1))), (0x51#8, 2, 5, .eor (.mem (.izy b1))),
    (0x24#8, 2, 3, .bit (.zp b1)), (0x2C#8, 3, 4, .bit (.abs (wordOf b1 b2)))]

/-- Shifts and rotates (R214 to R217). -/
def shiftRows (b1 b2 : Byte) : List OpcodeRow :=
  [(0x0A#8, 1, 2, .asl .acc), (0x06#8, 2, 5, .asl (.mem (.zp b1))), (0x16#8, 2, 6, .asl (.mem (.zpx b1))),
    (0x0E#8, 3, 6, .asl (.mem (.abs (wordOf b1 b2)))), (0x1E#8, 3, 7, .asl (.mem (.abx (wordOf b1 b2)))), (0x4A#8, 1, 2, .lsr .acc),
    (0x46#8, 2, 5, .lsr (.mem (.zp b1))), (0x56#8, 2, 6, .lsr (.mem (.zpx b1))), (0x4E#8, 3, 6, .lsr (.mem (.abs (wordOf b1 b2)))),
    (0x5E#8, 3, 7, .lsr (.mem (.abx (wordOf b1 b2)))), (0x2A#8, 1, 2, .rol .acc), (0x26#8, 2, 5, .rol (.mem (.zp b1))),
    (0x36#8, 2, 6, .rol (.mem (.zpx b1))), (0x2E#8, 3, 6, .rol (.mem (.abs (wordOf b1 b2)))), (0x3E#8, 3, 7, .rol (.mem (.abx (wordOf b1 b2)))),
    (0x6A#8, 1, 2, .ror .acc), (0x66#8, 2, 5, .ror (.mem (.zp b1))), (0x76#8, 2, 6, .ror (.mem (.zpx b1))),
    (0x6E#8, 3, 6, .ror (.mem (.abs (wordOf b1 b2)))), (0x7E#8, 3, 7, .ror (.mem (.abx (wordOf b1 b2))))]

/-- Jumps and branches (R230, R232, R235 to R242). -/
def controlRows (b1 b2 : Byte) : List OpcodeRow :=
  [(0x4C#8, 3, 3, .jmpAbs (wordOf b1 b2)), (0x6C#8, 3, 5, .jmpInd (wordOf b1 b2)), (0x20#8, 3, 6, .jsr (wordOf b1 b2)),
    (0x90#8, 2, 2, .bcc b1), (0xB0#8, 2, 2, .bcs b1), (0xF0#8, 2, 2, .beq b1),
    (0xD0#8, 2, 2, .bne b1), (0x30#8, 2, 2, .bmi b1), (0x10#8, 2, 2, .bpl b1),
    (0x50#8, 2, 2, .bvc b1), (0x70#8, 2, 2, .bvs b1)]

/-- A memory in canonical form with cells below `n` only. -/
def Memory.ok (n : Nat) (m : Memory) : Bool := m.wf && m.below n

/-- A row of the FrameBuffer: canonical, 256 columns, 6-bit cells (10_state.md R52). -/
def rowOk (r : Memory) : Bool := r.ok Config.fbWidth && r.sixBit

/-- The palette: canonical, the 28 cells that exist, 6 bits each (R48). -/
def paletteOk (m : Memory) : Bool :=
  m.ok Config.paletteSize && m.sixBit && m.all (fun c => decide (c.1 < 16) || c.1 % 4 != 0)

/-- Dots in a frame (63_picture_rendering.md R410). -/
def dotsPerFrame : Nat := 341 * 262

/-- The invariant of the machine at a step boundary. -/
structure Inv (s : State) : Prop where
  /-- P.B = 0 and P.U = 1 (10_state.md R27). -/
  status : getFlag .b s.p = false ∧ getFlag .u s.p = true
  /-- `rem` is 0 (R31). -/
  idle : s.rem = 0
  /-- dma_stall is 0 or DMA_STALL_CYCLES (R32). -/
  stall : s.dmaStall = 0 ∨ s.dmaStall = s.params.dmaStallCycles
  /-- The position is in range (R40) and a function of CYC (63_picture_rendering.md R412). -/
  position : s.ppu.dot < 341 ∧ s.ppu.scanline * 341 + s.ppu.dot = (3 * s.cyc) % dotsPerFrame
  /-- frame_count counts the vblanks begun: the first at dot 82182, then one every frame (R413). -/
  frames : s.ppu.frameCount = (3 * s.cyc + 7159) / dotsPerFrame
  /-- The line buffer holds at most eight sprites (R51). -/
  lineBuffer : s.ppu.sprites.length ≤ 8
  /-- The latches' indices are 0 to 8 (R54). -/
  latchIdx : s.latch.idx ≤ 8 ∧ s.latch.idx2 ≤ 8
  /-- RAM, OAM and VRAM are canonical and of their size (R35, R47, R49). -/
  ram : s.ram.ok Config.ramSize = true
  oam : s.ppu.oam.ok Config.oamSize = true
  vram : s.ppu.vram.ok Config.vramSize = true
  /-- The palette (R48). -/
  pal : paletteOk s.ppu.pal = true
  /-- FB has 240 rows of 256 six-bit cells (R52). -/
  fbRows : s.ppu.fb.length = Config.fbHeight
  fbCells : s.ppu.fb.all rowOk = true
  /-- The cartridge's memories are canonical and of their size (R53). -/
  prg : s.cart.prg.ok s.cart.prgSize.bytes = true
  chr : s.chr.ok Config.chrSize = true
  chrImage : s.cart.chrImage.ok Config.chrSize = true
  /-- Pattern ROM holds what the loader supplied (R53). -/
  rom : s.cart.chrIsRam = false → s.chr = s.cart.chrImage
  /-- No maskable request: the mandatory mapper raises none (60_exceptions.md R291). -/
  noIrq : s.irqRequest = false

/-- The states of a session: a cartridge is loaded, then the host steps the machine, resets it, or changes the buttons, at step
boundaries (61_system_bus.md R340). -/
inductive Reachable : State → Prop where
  | load (params : Params) (image : CartridgeImage) (s : State) (h : loadCartridge params image = .next s) : Reachable s
  | step (s t : State) (hs : Reachable s) (h : Machine.step s = .next t) : Reachable t
  | reset (s : State) (hs : Reachable s) : Reachable (resetSequence s)
  | buttons (s : State) (b b2 : Byte) (hs : Reachable s) : Reachable (setButtons b b2 s)

/-- A safe state: the machine has a step (60_exceptions.md R282). -/
def Safe (s : State) : Prop := s.fault = false

end Sys2Proof.Machine
end

