-- ==== Sys2Proof/Certificates/Slice0/Obligations.lean ====
section
/-! DEFINITION. The statements for the provers. Each docstring names the rules of spec/ it formalises. A statement about `exec` starts from
a state whose PC is past the instruction (30_encoding.md R121); `rem` of the next state is the cost the step then charges. -/

open Sys2Proof Sys2Proof.Machine

/-! ## Encoding -/

/-- 30_encoding.md R141, a few rows, one or more of each family: the bytes as the table writes them decode to the instruction they stand
for, the operand low byte first. -/
def Obligations.KnownWordsDecode : Prop :=
  decode [0xA9#8, 0x80#8] = .ok (.ldaImm 0x80#8, []) ∧
  decode [0xBD#8, 0xFF#8, 0x10#8] = .ok (.ldaAbx 0x10FF#16, []) ∧
  decode [0xB6#8, 0xF0#8] = .ok (.ldxZpy 0xF0#8, []) ∧
  decode [0x91#8, 0x10#8] = .ok (.staIzy 0x10#8, []) ∧
  decode [0x9A#8] = .ok (.txs, []) ∧
  decode [0x28#8] = .ok (.plp, []) ∧
  decode [0x61#8, 0x20#8] = .ok (.adcIzx 0x20#8, []) ∧
  decode [0xDE#8, 0x00#8, 0x03#8] = .ok (.decAbx 0x0300#16, []) ∧
  decode [0x2C#8, 0x02#8, 0x20#8] = .ok (.bitAbs 0x2002#16, []) ∧
  decode [0x6A#8] = .ok (.rorAcc, []) ∧
  decode [0x6C#8, 0xFF#8, 0x02#8] = .ok (.jmpInd 0x02FF#16, []) ∧
  decode [0x20#8, 0x00#8, 0x90#8] = .ok (.jsr 0x9000#16, []) ∧
  decode [0xD0#8, 0x03#8] = .ok (.bne 0x03#8, []) ∧
  decode [0x00#8] = .ok (.brk, []) ∧
  decode [0xEA#8] = .ok (.nop, []) ∧
  decode [0x02#8] = .ok (.undocumented 0x02#8, [])

/-- 30_encoding.md R141 whole: each row's opcode byte selects the row's mnemonic and mode, with the row's length and base cycles. -/
def Obligations.OpcodeTableRows : Prop :=
  ∀ b1 b2 : Byte, ∀ row ∈ loadRows b1 b2 ++ storeRows b1 b2 ++ impliedRows ++ addRows b1 b2 ++ compareRows b1 b2 ++
      modifyRows b1 b2 ++ logicRows b1 b2 ++ shiftRows b1 b2 ++ controlRows b1 b2,
    (assemble row.1 b1 b2).form = row.2.2.2 ∧ instrLength row.1 = row.2.1 ∧ baseCycles row.2.2.2 = row.2.2.1

/-- R143: exactly the 105 listed bytes select no instruction, whatever follows them, and one byte is all they take. -/
def Obligations.UndocumentedBytesSelectNoInstruction : Prop :=
  (∀ op b1 b2 : Byte, op ∈ undocumentedBytes → assemble op b1 b2 = .undocumented op ∧ instrLength op = 1) ∧
  (∀ op b1 b2 o : Byte, assemble op b1 b2 = .undocumented o → o = op ∧ op ∈ undocumentedBytes) ∧
  undocumentedBytes.length = 105 ∧ undocumentedBytes.Nodup

/-- R120, R141: decoding the encoding of any well-formed instruction, with any operand bytes and anything after it, gives it back. -/
def Obligations.DecodeOfEncode : Prop :=
  ∀ (i : Instr) (rest : List Byte), i.wf = true → decode (encode i ++ rest) = .ok (i, rest)

/-- R120, R145: whatever decodes is well formed, and its encoding is exactly the bytes that were read: no bit is dropped, no two byte strings
are one instruction. -/
def Obligations.EncodeOfDecode : Prop :=
  ∀ (bs rest : List Byte) (i : Instr), decode bs = .ok (i, rest) → i.wf = true ∧ encode i ++ rest = bs

/-! ## The CPU address space -/

/-- R81: work memory is 2048 bytes at 0x0000 to 0x1FFF, mirrored; a read has no side effect, a write stores only. Read back through any mirror it
is the byte stored, and no other cell changes (20_memory.md R91). -/
def Obligations.WorkMemoryIsMirrored : Prop :=
  ∀ (a : Word) (v : Byte) (s : State), a.toNat ≤ 0x1FFF →
    memRead a s = (s.ram.read (a &&& 0x07FF#16).toNat, s) ∧
    memWrite a v s = { s with ram := s.ram.write (a &&& 0x07FF#16).toNat v } ∧
    (∀ b : Word, b.toNat ≤ 0x1FFF → b &&& 0x07FF#16 = a &&& 0x07FF#16 → peek b (memWrite a v s) = v) ∧
    (∀ b : Word, b.toNat ≤ 0x1FFF → b &&& 0x07FF#16 ≠ a &&& 0x07FF#16 → peek b (memWrite a v s) = peek b s)

/-- R76 (with R494 and R497 for the ports): the table of read side effects, what each changes, and that every other address reads without one. -/
def Obligations.ReadSideEffectTable : Prop :=
  ∀ (a : Word) (s : State),
    (readHasSideEffect a s = false → (memRead a s).2 = s) ∧
    (picRegister a = some 2 → (memRead a s).2 = { s with ppu := { s.ppu with vblank := false, w := false } }) ∧
    (picRegister a = some 7 → (memRead a s).2 = { s with ppu := { s.ppu with
      buffer := ppuRead s.chr s.cart.mirroring s.ppu
        (if (s.ppu.v.setWidth 14).toNat < 0x3F00 then s.ppu.v.setWidth 14 else s.ppu.v.setWidth 14 - 0x1000#14)
      v := s.ppu.v + (if s.ppu.ctrl.getLsbD 2 then 32#15 else 1#15) } }) ∧
    (a = 0x4016#16 → (memRead a s).2 =
      if s.latch.strobe = true then { s with latch := { s.latch with shift := s.buttons, idx := 0 } }
      else if s.latch.idx < 8 then { s with latch := { s.latch with idx := s.latch.idx + 1 } } else s) ∧
    (a = 0x4017#16 → s.params.pad2Present = true → (memRead a s).2 =
      if s.latch.strobe = true then { s with latch := { s.latch with shift2 := s.buttons2, idx2 := 0 } }
      else if s.latch.idx2 < 8 then { s with latch := { s.latch with idx2 := s.latch.idx2 + 1 } } else s)

/-- R86 (with R83, R84, R85, R361, R365, R473): what no device answers reads OPEN_BUS, what no device accepts is dropped; neither changes
anything, and neither raises anything. -/
def Obligations.UndecodedAccesses : Prop :=
  ∀ (a : Word) (v : Byte) (s : State),
    (picRegister a ∈ [some 0, some 1, some 3, some 5, some 6] ∨ (0x4000 ≤ a.toNat ∧ a.toNat ≤ 0x4015) ∨
      (0x4018 ≤ a.toNat ∧ a.toNat ≤ 0x7FFF) → memRead a s = (s.params.openBus, s)) ∧
    (a = 0x4017#16 → s.params.pad2Present = false → memRead a s = (0x00#8, s)) ∧
    (picRegister a = some 2 ∨ (0x4000 ≤ a.toNat ∧ a.toNat ≤ 0x4013) ∨ a = 0x4015#16 ∨ 0x4017 ≤ a.toNat → memWrite a v s = s)

/-- R472: the program window. A 32768-byte PRG maps one to one; a 16384-byte PRG reads the same at 0x8000 to 0xBFFF and 0xC000 to 0xFFFF. -/
def Obligations.ProgramWindow : Prop :=
  ∀ (a : Word) (s : State),
    (0x8000 ≤ a.toNat → memRead a s = (s.cart.prg.read ((a.toNat - 0x8000) % s.cart.prgSize.bytes), s)) ∧
    (s.cart.prgSize = .k16 → 0x8000 ≤ a.toNat → a.toNat ≤ 0xBFFF → peek (a + 0x4000#16) s = peek a s) ∧
    (0x4020 ≤ a.toNat → a.toNat ≤ 0x7FFF → memRead a s = (s.params.openBus, s))

/-! ## Operands -/

/-- R126 to R134, R123: the effective address and `crossed` of every mode, and the read-class operand. Computing an address changes nothing; the
pointers of the indirect modes lie in the zero page and wrap in it; the operand is the immediate byte, with no access, or one bus read. -/
def Obligations.OperandForms : Prop :=
  ∀ (d8 : Byte) (a16 : Word) (m : AddrMode) (s : State),
    let pointer := fun p : Byte => wordOf (s.ram.read p.toNat) (s.ram.read (p + 1#8).toNat)
    let index := fun (base : Word) (i : Byte) => base + i.setWidth 16
    let differs := fun a b : Word => decide (a.toNat / 256 ≠ b.toNat / 256)
    locate (.zp d8) s = ⟨d8.setWidth 16, false, s⟩ ∧
    locate (.zpx d8) s = ⟨(d8 + s.x).setWidth 16, false, s⟩ ∧
    locate (.zpy d8) s = ⟨(d8 + s.y).setWidth 16, false, s⟩ ∧
    locate (.abs a16) s = ⟨a16, false, s⟩ ∧
    locate (.abx a16) s = ⟨index a16 s.x, differs (index a16 s.x) a16, s⟩ ∧
    locate (.aby a16) s = ⟨index a16 s.y, differs (index a16 s.y) a16, s⟩ ∧
    locate (.izx d8) s = ⟨pointer (d8 + s.x), false, s⟩ ∧
    locate (.izy d8) s = ⟨index (pointer d8) s.y, differs (index (pointer d8) s.y) (pointer d8), s⟩ ∧
    readSource (.imm d8) s = ⟨d8, false, s⟩ ∧
    readSource (.mem m) s = ⟨(memRead (locate m s).ea s).1, (locate m s).crossed, (memRead (locate m s).ea s).2⟩

/-! ## Results. Each is also where its instructions complete: in every state, with every operand. -/

/-- R160, R161, R162: a load writes its register with the operand, Z and N from it; the operand's one read keeps its side effect. -/
def Obligations.LoadInstructions : Prop :=
  ∀ (i : Instr) (s : State) (src : Source) (r : Reg),
    (i.form = .lda src ∧ r = .a) ∨ (i.form = .ldx src ∧ r = .x) ∨ (i.form = .ldy src ∧ r = .y) →
    ∃ q, exec i s = .next { writeReg r (readSource src s).val (readSource src s).st with
        p := q, rem := baseCycles i.form + crossPenalty (readSource src s).crossed } ∧
      FlagsAre s.p q [(.z, (readSource src s).val == 0#8), (.n, (readSource src s).val.getLsbD 7)]

/-- R163, R164, R165: a store makes one write of its register at the effective address: no read of it, no flag, no page penalty. -/
def Obligations.StoreInstructions : Prop :=
  ∀ (i : Instr) (s : State) (m : AddrMode) (v : Byte),
    (i.form = .sta m ∧ v = s.a) ∨ (i.form = .stx m ∧ v = s.x) ∨ (i.form = .sty m ∧ v = s.y) →
    exec i s = .next { memWrite (locate m s).ea v s with rem := baseCycles i.form }

/-- R166 to R171: the transfers; TXS is the one that sets no flag. -/
def Obligations.TransferInstructions : Prop :=
  ∀ s : State,
    (∀ (i : Instr) (src dst : Reg),
      (i, src, dst) ∈ [(.tax, .a, .x), (.tay, .a, .y), (.txa, .x, .a), (.tya, .y, .a), (.tsx, .s, .x)] →
      ∃ q, exec i s = .next { writeReg dst (readReg src s) s with p := q, rem := 2 } ∧
        FlagsAre s.p q [(.z, readReg src s == 0#8), (.n, (readReg src s).getLsbD 7)]) ∧
    exec .txs s = .next { s with sp := s.x, rem := 2 }

/-- R182 to R185 (with R180, R181, R27): a push stores at the cell S names, then decrements S; a pull increments S, then reads the cell it names;
both modulo 256. PHP's byte is P with B and U 1; PLP ignores bits 5 and 4 of the byte. -/
def Obligations.StackInstructions : Prop :=
  ∀ s : State,
    let m := s.ram.read (0x100 + (s.sp + 1#8).toNat)
    exec .pha s = .next { s with ram := s.ram.write (0x100 + s.sp.toNat) s.a, sp := s.sp - 1#8, rem := 3 } ∧
    (∃ b, exec .php s = .next { s with ram := s.ram.write (0x100 + s.sp.toNat) b, sp := s.sp - 1#8, rem := 3 } ∧
      FlagsAre s.p b [(.b, true), (.u, true)]) ∧
    (∃ q, exec .pla s = .next { s with a := m, sp := s.sp + 1#8, p := q, rem := 4 } ∧
      FlagsAre s.p q [(.z, m == 0#8), (.n, m.getLsbD 7)]) ∧
    ∃ q, exec .plp s = .next { s with sp := s.sp + 1#8, p := q, rem := 4 } ∧ FlagsAre m q [(.b, false), (.u, true)]

/-- R191, R190: ADC adds the operand and the carry in binary, whatever D holds; C is the unsigned carry, V the signed overflow. -/
def Obligations.AddWithCarry : Prop :=
  ∀ (i : Instr) (s : State) (src : Source), i.form = .adc src →
    let o := readSource src s
    let c := if getFlag .c s.p then 1 else 0
    let t := s.a.toNat + o.val.toNat + c
    let r := BitVec.ofNat 8 t
    let signed := s.a.toInt + o.val.toInt + (c : Int)
    ∃ q, exec i s = .next { o.st with a := r, p := q, rem := baseCycles i.form + crossPenalty o.crossed } ∧
      FlagsAre s.p q [(.z, r == 0#8), (.n, r.getLsbD 7), (.c, decide (0xFF < t)),
        (.v, decide (signed < -128 ∨ 127 < signed))] ∧
      getFlag .v q = (((s.a ^^^ r) &&& (o.val ^^^ r) &&& 0x80#8) != 0#8)

/-- R192, R190: SBC subtracts the operand and the borrow, the complement of C; C after it is 1 when no borrow occurred; V is the signed overflow. -/
def Obligations.SubtractWithBorrow : Prop :=
  ∀ (i : Instr) (s : State) (src : Source), i.form = .sbc src →
    let o := readSource src s
    let c := if getFlag .c s.p then 1 else 0
    let n := o.val ^^^ 0xFF#8
    let r := s.a - o.val - BitVec.ofNat 8 (1 - c)
    let signed := s.a.toInt - o.val.toInt - (1 - (c : Int))
    ∃ q, exec i s = .next { o.st with a := r, p := q, rem := baseCycles i.form + crossPenalty o.crossed } ∧
      r = BitVec.ofNat 8 (s.a.toNat + n.toNat + c) ∧
      FlagsAre s.p q [(.z, r == 0#8), (.n, r.getLsbD 7), (.c, decide (o.val.toNat + (1 - c) ≤ s.a.toNat)),
        (.v, decide (signed < -128 ∨ 127 < signed))] ∧
      getFlag .v q = (((s.a ^^^ r) &&& (n ^^^ r) &&& 0x80#8) != 0#8)

/-- R193, R194, R195: a compare writes N, Z and C from the unsigned difference and nothing else. -/
def Obligations.CompareInstructions : Prop :=
  ∀ (i : Instr) (s : State) (src : Source) (reg : Byte),
    (i.form = .cmp src ∧ reg = s.a) ∨ (i.form = .cpx src ∧ reg = s.x) ∨ (i.form = .cpy src ∧ reg = s.y) →
    let o := readSource src s
    ∃ q, exec i s = .next { o.st with p := q, rem := baseCycles i.form + crossPenalty o.crossed } ∧
      FlagsAre s.p q [(.z, decide (reg = o.val)), (.n, (reg - o.val).getLsbD 7), (.c, decide (o.val.toNat ≤ reg.toNat))]

/-- R196 to R201: the increments and decrements, modulo 256; Z and N from the result. On memory, one read and one write of the effective address, in
that order, and no page penalty. -/
def Obligations.IncrementDecrement : Prop :=
  (∀ (i : Instr) (s : State) (m : AddrMode) (delta : Byte), (i.form = .inc m ∧ delta = 1#8) ∨ (i.form = .dec m ∧ delta = 0xFF#8) →
    let ea := (locate m s).ea
    let r := (memRead ea s).1 + delta
    ∃ q, exec i s = .next { memWrite ea r (memRead ea s).2 with p := q, rem := baseCycles i.form } ∧
      FlagsAre s.p q [(.z, r == 0#8), (.n, r.getLsbD 7)]) ∧
  (∀ (s : State) (i : Instr) (reg : Reg) (delta : Byte),
    (i, reg, delta) ∈ [(.inx, .x, 1#8), (.iny, .y, 1#8), (.dex, .x, 0xFF#8), (.dey, .y, 0xFF#8)] →
    let r := readReg reg s + delta
    ∃ q, exec i s = .next { writeReg reg r s with p := q, rem := 2 } ∧ FlagsAre s.p q [(.z, r == 0#8), (.n, r.getLsbD 7)])

/-- R210, R211, R212: the logic instructions; C and V untouched. -/
def Obligations.LogicInstructions : Prop :=
  ∀ (i : Instr) (s : State) (src : Source) (r : Byte),
    (i.form = .and src ∧ r = s.a &&& (readSource src s).val) ∨ (i.form = .ora src ∧ r = s.a ||| (readSource src s).val) ∨
      (i.form = .eor src ∧ r = s.a ^^^ (readSource src s).val) →
    ∃ q, exec i s = .next { (readSource src s).st with
        a := r, p := q, rem := baseCycles i.form + crossPenalty (readSource src s).crossed } ∧
      FlagsAre s.p q [(.z, r == 0#8), (.n, r.getLsbD 7)]

/-- R213: BIT copies bits 7 and 6 of the memory operand to N and V, and tests it against A for Z. -/
def Obligations.BitTest : Prop :=
  ∀ (i : Instr) (s : State) (m : AddrMode), i.form = .bit m →
    let o := readSource (.mem m) s
    ∃ q, exec i s = .next { o.st with p := q, rem := baseCycles i.form + crossPenalty o.crossed } ∧
      FlagsAre s.p q [(.z, s.a &&& o.val == 0#8), (.n, o.val.getLsbD 7), (.v, o.val.getLsbD 6)]

/-- R214 to R217: the result and the carry out of a one-bit shift or rotate of `m` with carry `c`; for the accumulator and for memory, where one
read is followed by one write of the same address. -/
def Obligations.ShiftInstructions : Prop :=
  ∀ (i : Instr) (s : State) (tgt : Target) (f : Byte → Bool → Byte × Bool),
    (i.form = .asl tgt ∧ f = fun (m : Byte) (_ : Bool) => (m <<< 1, m.getLsbD 7)) ∨
    (i.form = .lsr tgt ∧ f = fun (m : Byte) (_ : Bool) => (m >>> 1, m.getLsbD 0)) ∨
    (i.form = .rol tgt ∧ f = fun (m : Byte) (c : Bool) => ((m <<< 1) ||| (if c then 0x01#8 else 0#8), m.getLsbD 7)) ∨
    (i.form = .ror tgt ∧ f = fun (m : Byte) (c : Bool) => ((m >>> 1) ||| (if c then 0x80#8 else 0#8), m.getLsbD 0)) →
    (tgt = .acc → ∃ q, exec i s = .next { s with a := (f s.a (getFlag .c s.p)).1, p := q, rem := 2 } ∧
      FlagsAre s.p q [(.z, (f s.a (getFlag .c s.p)).1 == 0#8), (.n, (f s.a (getFlag .c s.p)).1.getLsbD 7),
        (.c, (f s.a (getFlag .c s.p)).2)]) ∧
    (∀ m, tgt = .mem m →
      let ea := (locate m s).ea
      let r := f (memRead ea s).1 (getFlag .c s.p)
      ∃ q, exec i s = .next { memWrite ea r.1 (memRead ea s).2 with p := q, rem := baseCycles i.form } ∧
        FlagsAre s.p q [(.z, r.1 == 0#8), (.n, r.1.getLsbD 7), (.c, r.2)])

/-- R230 to R233: JMP, whose indirect form reads both pointer bytes from the pointer's own page, low byte first, through the bus; JSR, which pushes the
address of its own last byte, high byte first; RTS, which pulls a word and adds 1. S wraps in page 1. -/
def Obligations.JumpCallReturn : Prop :=
  ∀ (s : State) (a16 : Word),
    let ret := s.pc - 1#16
    exec (.jmpAbs a16) s = .next { s with pc := a16, rem := 3 } ∧
    (let l := memRead a16 s
     let h := memRead ((a16 &&& 0xFF00#16) ||| ((a16 + 1#16) &&& 0x00FF#16)) l.2
     exec (.jmpInd a16) s = .next { h.2 with pc := wordOf l.1 h.1, rem := 5 }) ∧
    exec (.jsr a16) s = .next { s with
      ram := (s.ram.write (0x100 + s.sp.toNat) (hiByte ret)).write (0x100 + (s.sp - 1#8).toNat) (loByte ret)
      sp := s.sp - 2#8, pc := a16, rem := 6 } ∧
    exec .rts s = .next { s with
      sp := s.sp + 2#8
      pc := wordOf (s.ram.read (0x100 + (s.sp + 1#8).toNat)) (s.ram.read (0x100 + (s.sp + 2#8).toNat)) + 1#16
      rem := 6 }

/-- R234 to R242: a branch not taken costs 2; taken it goes to the fall-through address plus the signed offset, and costs 3, or 4 to another page. -/
def Obligations.BranchInstructions : Prop :=
  ∀ (i : Instr) (s : State) (d8 : Byte) (cond : Bool),
    (i = .bcc d8 ∧ cond = !getFlag .c s.p) ∨ (i = .bcs d8 ∧ cond = getFlag .c s.p) ∨
    (i = .bne d8 ∧ cond = !getFlag .z s.p) ∨ (i = .beq d8 ∧ cond = getFlag .z s.p) ∨
    (i = .bpl d8 ∧ cond = !getFlag .n s.p) ∨ (i = .bmi d8 ∧ cond = getFlag .n s.p) ∨
    (i = .bvc d8 ∧ cond = !getFlag .v s.p) ∨ (i = .bvs d8 ∧ cond = getFlag .v s.p) →
    let target := BitVec.ofInt 16 ((s.pc.toNat : Int) + d8.toInt)
    (cond = false → exec i s = .next { s with rem := 2 }) ∧
    (cond = true → exec i s = .next { s with
      pc := target, rem := if target.toNat / 256 = s.pc.toNat / 256 then 3 else 4 })

/-- R243: BRK skips a padding byte unread, pushes the return address and P with B and U 1, sets I, and loads PC from 0xFFFE; every other flag of P
stays. -/
def Obligations.BreakInstruction : Prop :=
  ∀ s : State,
    let ret := s.pc + 1#16
    ∃ b q, exec .brk s = .next { s with
        ram := ((s.ram.write (0x100 + s.sp.toNat) (hiByte ret)).write (0x100 + (s.sp - 1#8).toNat) (loByte ret)).write
          (0x100 + (s.sp - 2#8).toNat) b
        sp := s.sp - 3#8, p := q, pc := wordOf (peek 0xFFFE#16 s) (peek 0xFFFF#16 s), rem := 7 } ∧
      FlagsAre s.p b [(.b, true), (.u, true)] ∧ FlagsAre s.p q [(.i, true)]

/-- R244: RTI pulls P, bits 5 and 4 ignored, then PC, low byte first; no 1 is added. -/
def Obligations.ReturnFromInterrupt : Prop :=
  ∀ s : State,
    ∃ q, exec .rti s = .next { s with
        sp := s.sp + 3#8, p := q
        pc := wordOf (s.ram.read (0x100 + (s.sp + 2#8).toNat)) (s.ram.read (0x100 + (s.sp + 3#8).toNat)), rem := 6 } ∧
      FlagsAre (s.ram.read (0x100 + (s.sp + 1#8).toNat)) q [(.b, false), (.u, true)]

/-- R260 to R267: the flag instructions write the one flag they name; NOP writes nothing. -/
def Obligations.FlagInstructionsAndNop : Prop :=
  ∀ s : State,
    (∀ (i : Instr) (f : Flag) (val : Bool),
      (i, f, val) ∈ [(.clc, .c, false), (.sec, .c, true), (.cli, .i, false), (.sei, .i, true), (.clv, .v, false),
        (.cld, .d, false), (.sed, .d, true)] →
      ∃ q, exec i s = .next { s with p := q, rem := 2 } ∧ FlagsAre s.p q [(f, val)]) ∧
    exec .nop s = .next { s with rem := 2 }

/-- R282, the exception itself: an undocumented byte sets the fault latch, records the byte and its address, leaves PC at it, and changes nothing
else. That it stops the machine is StepOnFaultedMachine; that no time passes is FatalDecodeStep. -/
def Obligations.UndocumentedRaisesFatalDecodeError : Prop :=
  ∀ (op : Byte) (s : State),
    exec (.undocumented op) s = .next { s with
      fault := true, faultOpcode := op, faultPc := s.pc - 1#16, pc := s.pc - 1#16 }

/-! ## Frames -/

/-- Every instruction that stores nothing (the loads, transfers, pulls, read-class arithmetic and logic, register increments, compares, BIT, the
accumulator shifts, jumps, branches, RTS, RTI, the flag instructions, NOP, an undocumented byte): every byte a program can read without side
effect reads as before, and every memory of the devices is as before. -/
def Obligations.NonStoringFrame : Prop :=
  ∀ (i : Instr) (s t : State), formStores i.form = false → exec i s = .next t →
    (∀ a : Word, readHasSideEffect a s = false → peek a t = peek a s) ∧
    (∀ k, t.ppu.oam.read k = s.ppu.oam.read k ∧ t.ppu.vram.read k = s.ppu.vram.read k ∧ t.ppu.pal.read k = s.ppu.pal.read k ∧
      t.chr.read k = s.chr.read k ∧ t.cart.prg.read k = s.cart.prg.read k) ∧
    (∀ row col, fbRead t.ppu.fb row col = fbRead s.ppu.fb row col) ∧
    t.nmiRequest = s.nmiRequest ∧ t.dmaStall = s.dmaStall ∧ t.latch.strobe = s.latch.strobe ∧
    t.ppu.ctrl = s.ppu.ctrl ∧ t.ppu.mask = s.ppu.mask ∧ t.ppu.oamAddr = s.ppu.oamAddr ∧ t.ppu.t = s.ppu.t ∧ t.ppu.fineX = s.ppu.fineX

/-- Every instruction that stores at an effective address (the stores, and INC, DEC and the shifts on memory): with `ea` the address `locate` gives in
the starting state, every byte of work memory, of the I/O window and of program memory reads as before but the cell `ea` names; the devices'
memories are as before unless `ea` is the port that writes them. -/
def Obligations.StoringFrame : Prop :=
  ∀ (i : Instr) (s t : State) (m : AddrMode),
    i.form ∈ [.sta m, .stx m, .sty m, .inc m, .dec m, .asl (.mem m), .lsr (.mem m), .rol (.mem m), .ror (.mem m)] →
    exec i s = .next t →
    let ea := (locate m s).ea
    (∀ a : Word, (a.toNat ≤ 0x1FFF ∨ 0x4000 ≤ a.toNat) → readHasSideEffect a s = false → sameCell a ea = false →
      peek a t = peek a s) ∧
    (∀ k, t.cart.prg.read k = s.cart.prg.read k) ∧
    (ea ≠ 0x4014#16 → picRegister ea ≠ some 4 → ∀ k, t.ppu.oam.read k = s.ppu.oam.read k) ∧
    (picRegister ea ≠ some 7 → ∀ k, t.ppu.vram.read k = s.ppu.vram.read k ∧ t.ppu.pal.read k = s.ppu.pal.read k ∧
      t.chr.read k = s.chr.read k) ∧
    (∀ row col, fbRead t.ppu.fb row col = fbRead s.ppu.fb row col)

/-- The instructions that push (PHA, PHP one byte, JSR two, BRK three): every byte reads as before but the cells `0x0100 + S`, `0x0100 + S - 1`,
... of the pushed bytes, S wrapping in page 1; nothing but the processor's registers and work memory changes. -/
def Obligations.StackFrame : Prop :=
  ∀ (i : Instr) (s t : State) (n : Nat), (i = .pha ∧ n = 1) ∨ (i = .php ∧ n = 1) ∨ (∃ a16, i = .jsr a16 ∧ n = 2) ∨ (i = .brk ∧ n = 3) →
    exec i s = .next t →
    (∀ a : Word, (∀ k < n, sameCell a (wordOf (s.sp - BitVec.ofNat 8 k) 0x01#8) = false) → peek a t = peek a s) ∧
    t.sp = s.sp - BitVec.ofNat 8 n ∧ t.a = s.a ∧ t.x = s.x ∧ t.y = s.y ∧
    t.ppu = s.ppu ∧ t.chr = s.chr ∧ t.latch = s.latch ∧ t.nmiRequest = s.nmiRequest ∧ t.dmaStall = s.dmaStall

/-- R92, R451 and 10_state.md R30, R33, R34, R40: within an instruction the Picture Generator does not move. No documented instruction changes the
position, the frame count, CYC, a pixel, the sprite flags, the line buffer, the shifters or their latches, the maskable request, the fault latch
and what it records, the cartridge, the parameters or the buttons. -/
def Obligations.InstructionsDoNotMoveThePicture : Prop :=
  ∀ (i : Instr) (s t : State), (∀ op, i ≠ .undocumented op) → exec i s = .next t →
    t.ppu.scanline = s.ppu.scanline ∧ t.ppu.dot = s.ppu.dot ∧ t.ppu.frameCount = s.ppu.frameCount ∧ t.cyc = s.cyc ∧
    (∀ row col, fbRead t.ppu.fb row col = fbRead s.ppu.fb row col) ∧
    t.ppu.spriteZeroHit = s.ppu.spriteZeroHit ∧ t.ppu.spriteOverflow = s.ppu.spriteOverflow ∧ t.ppu.sprites = s.ppu.sprites ∧
    t.ppu.bgLo = s.ppu.bgLo ∧ t.ppu.bgHi = s.ppu.bgHi ∧ t.ppu.atLo = s.ppu.atLo ∧ t.ppu.atHi = s.ppu.atHi ∧
    t.ppu.ntLatch = s.ppu.ntLatch ∧ t.ppu.atLatch = s.ppu.atLatch ∧ t.ppu.patLoLatch = s.ppu.patLoLatch ∧
    t.ppu.patHiLatch = s.ppu.patHiLatch ∧ t.irqRequest = s.irqRequest ∧ t.fault = s.fault ∧ t.faultOpcode = s.faultOpcode ∧
    t.faultPc = s.faultPc ∧ t.cart = s.cart ∧ t.params = s.params ∧ t.buttons = s.buttons ∧ t.buttons2 = s.buttons2

/-- R21 to R25: which instructions write A, X, Y, S and move PC; every other instruction leaves the register. -/
def Obligations.RegisterWriters : Prop :=
  ∀ (i : Instr) (s t : State), exec i s = .next t →
    (t.a = s.a ∨ (∃ src, i.form ∈ [.lda src, .adc src, .sbc src, .and src, .ora src, .eor src]) ∨
      i ∈ [.txa, .tya, .pla, .aslAcc, .lsrAcc, .rolAcc, .rorAcc]) ∧
    (t.x = s.x ∨ (∃ src, i.form = .ldx src) ∨ i ∈ [.tax, .tsx, .inx, .dex]) ∧
    (t.y = s.y ∨ (∃ src, i.form = .ldy src) ∨ i ∈ [.tay, .iny, .dey]) ∧
    (t.sp = s.sp ∨ (∃ a16, i = .jsr a16) ∨ i ∈ [.txs, .pha, .php, .pla, .plp, .rts, .brk, .rti]) ∧
    (t.pc = s.pc ∨ (∃ a16, i ∈ [.jmpAbs a16, .jmpInd a16, .jsr a16]) ∨
      (∃ d8, i ∈ [.bcc d8, .bcs d8, .beq d8, .bne d8, .bmi d8, .bpl d8, .bvc d8, .bvs d8, .undocumented d8]) ∨
      i ∈ [.rts, .brk, .rti])

/-- R28: which instructions write each flag; every other instruction leaves it. -/
def Obligations.FlagWriters : Prop :=
  ∀ (i : Instr) (s t : State), exec i s = .next t →
    let nz := (∃ src, i.form ∈ [.lda src, .ldx src, .ldy src, .and src, .ora src, .eor src, .cmp src, .cpx src, .cpy src, .adc src, .sbc src]) ∨
      (∃ m, i.form ∈ [.inc m, .dec m, .bit m]) ∨ (∃ g, i.form ∈ [.asl g, .lsr g, .rol g, .ror g]) ∨
      i ∈ [.tax, .tay, .txa, .tya, .tsx, .pla, .inx, .iny, .dex, .dey, .plp, .rti]
    let arith := ∃ src, i.form ∈ [.adc src, .sbc src]
    (getFlag .n t.p = getFlag .n s.p ∨ nz) ∧ (getFlag .z t.p = getFlag .z s.p ∨ nz) ∧
    (getFlag .c t.p = getFlag .c s.p ∨ arith ∨ (∃ src, i.form ∈ [.cmp src, .cpx src, .cpy src]) ∨
      (∃ g, i.form ∈ [.asl g, .lsr g, .rol g, .ror g]) ∨ i ∈ [.clc, .sec, .plp, .rti]) ∧
    (getFlag .v t.p = getFlag .v s.p ∨ arith ∨ (∃ m, i.form = .bit m) ∨ i ∈ [.clv, .plp, .rti]) ∧
    (getFlag .i t.p = getFlag .i s.p ∨ i ∈ [.cli, .sei, .brk, .plp, .rti]) ∧
    (getFlag .d t.p = getFlag .d s.p ∨ i ∈ [.cld, .sed, .plp, .rti]) ∧
    (getFlag .b t.p = getFlag .b s.p ∨ i ∈ [.plp, .rti]) ∧ (getFlag .u t.p = getFlag .u s.p ∨ i ∈ [.plp, .rti])

/-! ## The step -/

/-- R280, R121: with no interrupt to take, a step runs the instruction the bytes at PC decode to, from the state with PC past it and the pending stall
taken; then the tick charges its cost and that stall. Here for code where fetching has no side effect; StepFetchesThroughTheBus is the rest. -/
def Obligations.StepRunsDecodedInstruction : Prop :=
  ∀ (s : State) (i : Instr) (rest : List Byte), s.fault = false → s.nmiRequest = false →
    (s.irqRequest = false ∨ getFlag .i s.p = true) →
    decode [peek s.pc s, peek (s.pc + 1#16) s, peek (s.pc + 2#16) s] = .ok (i, rest) →
    (∀ k < (encode i).length, readHasSideEffect (s.pc + BitVec.ofNat 16 k) s = false) →
    ∃ t, exec i { s with dmaStall := 0, pc := s.pc + BitVec.ofNat 16 (encode i).length } = .next t ∧
      step s = .next (if t.fault then { t with dmaStall := s.dmaStall }
        else tick (t.rem + s.dmaStall) { t with rem := t.rem + s.dmaStall })

/-- R121, R93: fetching is reading through the bus, byte after byte from PC, with each read's side effect: exactly as many bytes as the instruction has. -/
def Obligations.StepFetchesThroughTheBus : Prop :=
  (∀ s : State, fetch8 s = ((memRead s.pc s).1, { (memRead s.pc s).2 with pc := s.pc + 1#16 })) ∧
  ∀ (s : State) (i : Instr) (rest : List Byte), s.fault = false → s.nmiRequest = false →
    (s.irqRequest = false ∨ getFlag .i s.p = true) →
    let after := fun n => Nat.iterate (fun u => (fetch8 u).2) n { s with dmaStall := 0 }
    decode [(fetch8 (after 0)).1, (fetch8 (after 1)).1, (fetch8 (after 2)).1] = .ok (i, rest) →
    ∃ t, exec i (after (encode i).length) = .next t ∧
      step s = .next (if t.fault then { t with dmaStall := s.dmaStall }
        else tick (t.rem + s.dmaStall) { t with rem := t.rem + s.dmaStall })

/-- R290, R293, R294: a pending NMI is taken whatever P.I and the maskable line hold: its request is cleared, PC and P (B 0, U 1) go to the stack, I is
set and PC comes from 0xFFFA; every other flag and register stays; the step costs INT_CYCLES and the pending stall. -/
def Obligations.NonMaskableInterrupt : Prop :=
  ∀ s : State, s.fault = false → s.nmiRequest = true →
    ∃ b q, step s = .next (tick (s.params.intCycles + s.dmaStall) { s with
        nmiRequest := false, dmaStall := 0
        ram := ((s.ram.write (0x100 + s.sp.toNat) (hiByte s.pc)).write (0x100 + (s.sp - 1#8).toNat) (loByte s.pc)).write
          (0x100 + (s.sp - 2#8).toNat) b
        sp := s.sp - 3#8, p := q, pc := wordOf (peek 0xFFFA#16 s) (peek 0xFFFB#16 s)
        rem := s.params.intCycles + s.dmaStall }) ∧
      FlagsAre s.p b [(.b, false), (.u, true)] ∧ FlagsAre s.p q [(.i, true)]

/-- R291, R294: a maskable request is taken when no NMI is pending and P.I is 0, through 0xFFFE; the request itself stays. -/
def Obligations.MaskableInterrupt : Prop :=
  ∀ s : State, s.fault = false → s.nmiRequest = false → s.irqRequest = true → getFlag .i s.p = false →
    ∃ b q, step s = .next (tick (s.params.intCycles + s.dmaStall) { s with
        dmaStall := 0
        ram := ((s.ram.write (0x100 + s.sp.toNat) (hiByte s.pc)).write (0x100 + (s.sp - 1#8).toNat) (loByte s.pc)).write
          (0x100 + (s.sp - 2#8).toNat) b
        sp := s.sp - 3#8, p := q, pc := wordOf (peek 0xFFFE#16 s) (peek 0xFFFF#16 s)
        rem := s.params.intCycles + s.dmaStall }) ∧
      FlagsAre s.p b [(.b, false), (.u, true)] ∧ FlagsAre s.p q [(.i, true)]

/-- R282: a step that fetches an undocumented byte sets the fault latch, records the byte and its address, leaves PC at it and puts the stall back: no
cycle passes, the fetch's own side effect stands, nothing else changes. From then on there is no step. -/
def Obligations.FatalDecodeErrorStopsTheMachine : Prop :=
  (∀ s : State, s.fault = false → s.nmiRequest = false → (s.irqRequest = false ∨ getFlag .i s.p = true) →
    (memRead s.pc s).1 ∈ undocumentedBytes →
    step s = .next { (memRead s.pc s).2 with fault := true, faultOpcode := (memRead s.pc s).1, faultPc := s.pc }) ∧
  (∀ s : State, s.fault = true → step s = .fault (.fatalDecodeError s.faultOpcode s.faultPc))

/-- R280, R281, R30, R31: what a step that runs to its end charges. CYC grows by the step's own cost, INT_CYCLES for an entry and what the instruction
leaves in `rem` otherwise, plus the stall pending at its start; `rem` is 0 again; a stall the step itself sets stays pending. -/
def Obligations.StepCharges : Prop :=
  ∀ s t : State, step s = .next t → t.fault = false →
    let s0 := { s with dmaStall := 0 }
    t.rem = 0 ∧
    (pollInterrupt s ≠ .none → t.cyc = s.cyc + s.params.intCycles + s.dmaStall ∧ t.dmaStall = 0) ∧
    (pollInterrupt s = .none → ∃ u, exec (fetchInstruction s0).1 (fetchInstruction s0).2 = .next u ∧
      t.cyc = s.cyc + u.rem + s.dmaStall ∧ t.dmaStall = u.dmaStall)

/-- R330, R331: a tick of n cycles is n more on CYC, n fewer on `rem`, and 3n dots, each of which may raise the interrupt line. -/
def Obligations.TickIsThreeDotsACycle : Prop :=
  ∀ (n : Nat) (s : State),
    tick n s = { Nat.iterate tickDot (3 * n) s with cyc := s.cyc + n, rem := s.rem - n } ∧
    tickDot s = { s with
      ppu := ppuDot s.chr s.cart.mirroring s.ppu
      nmiRequest := s.nmiRequest || (decide (s.ppu.scanline = 241) && decide (s.ppu.dot = 1) && s.ppu.ctrl.getLsbD 7) }

/-- The invariant of the machine (R27, R31, R32, R40, R48, R51 to R54, R291, R412, and the canonical form of every memory) is kept by every step, from
every state that has it: also by the step that raises FatalDecodeError. -/
def Obligations.StepKeepsInvariant : Prop :=
  ∀ s t : State, Inv s → step s = .next t → Inv t

/-- State.reset has the invariant, and its memory lists nothing. -/
def Obligations.ResetStateInvariant : Prop :=
  Inv State.reset ∧ State.reset.ram = [] ∧ State.reset.fault = false

/-- R412, R413: in every state of a session the invariant holds, and the Picture Generator's position and frame count are functions of CYC alone. -/
def Obligations.PositionFollowsCycles : Prop :=
  ∀ s : State, Reachable s → Inv s ∧
    s.ppu.scanline = (3 * s.cyc) % 89342 / 341 ∧ s.ppu.dot = (3 * s.cyc) % 89342 % 341 ∧
    s.ppu.frameCount = (3 * s.cyc + 89342 - 82183) / 89342

/-- R53, R55, R473, R476: no step changes the cartridge, the parameters or the buttons; pattern memory that is ROM never changes. -/
def Obligations.StepKeepsCartridge : Prop :=
  ∀ s t : State, step s = .next t →
    t.cart = s.cart ∧ t.params = s.params ∧ t.buttons = s.buttons ∧ t.buttons2 = s.buttons2 ∧ t.irqRequest = s.irqRequest ∧
    (s.cart.chrIsRam = false → t.chr = s.chr)

/-- R510: reset, from any state: every register and memory at its value, PC from 0xFFFC, then the tick of RESET_CYCLES. The cartridge, the parameters
and the buttons stay. (fault_opcode and fault_pc, which the rule does not set, are left out: log 4. FB is 0 before the tick, as the rule sets it; that
the dots of the tick then write PAL[0] into it, where that is not 0, is the model's choice: log 19.) -/
def Obligations.ResetSequenceValues : Prop :=
  ∀ s : State, ∃ u, resetSequence s = tick s.params.resetCycles u ∧ (resetSequence s).cyc = s.params.resetCycles ∧
    u.a = 0x00#8 ∧ u.x = 0x00#8 ∧ u.y = 0x00#8 ∧ u.sp = 0xFD#8 ∧ u.p = 0x24#8 ∧ u.rem = 0 ∧ u.fault = false ∧
    (∀ k < 2048, u.ram.read k = s.params.ramInit) ∧ u.nmiRequest = false ∧ u.irqRequest = false ∧ u.dmaStall = 0 ∧ u.cyc = 0 ∧
    u.ppu.scanline = 0 ∧ u.ppu.dot = 0 ∧ u.ppu.frameCount = 0 ∧ u.ppu.ctrl = 0#8 ∧ u.ppu.mask = 0#8 ∧ u.ppu.vblank = false ∧
    u.ppu.spriteZeroHit = false ∧ u.ppu.spriteOverflow = false ∧ u.ppu.oamAddr = 0#8 ∧ u.ppu.v = 0#15 ∧ u.ppu.t = 0#15 ∧
    u.ppu.fineX = 0#3 ∧ u.ppu.w = false ∧ u.ppu.buffer = 0#8 ∧
    (∀ k < 256, u.ppu.oam.read k = s.params.ramInit) ∧ (∀ k < 2048, u.ppu.vram.read k = s.params.ramInit) ∧
    (∀ a : BitVec 14, u.ppu.pal.read (palIndex a) = s.params.ramInit &&& 0x3F#8) ∧
    u.ppu.ntLatch = 0#8 ∧ u.ppu.atLatch = 0#2 ∧ u.ppu.patLoLatch = 0#8 ∧ u.ppu.patHiLatch = 0#8 ∧ u.ppu.bgLo = 0#16 ∧
    u.ppu.bgHi = 0#16 ∧ u.ppu.atLo = 0#16 ∧ u.ppu.atHi = 0#16 ∧ u.ppu.sprites = [] ∧
    (∀ row col, fbRead u.ppu.fb row col = 0#8) ∧ u.ppu.fb.length = 240 ∧
    u.chr = (if s.cart.chrIsRam then s.cart.chrImage else s.chr) ∧ u.cart = s.cart ∧ u.params = s.params ∧
    u.buttons = s.buttons ∧ u.buttons2 = s.buttons2 ∧
    u.latch.strobe = false ∧ u.latch.shift = 0#8 ∧ u.latch.idx = 0 ∧ u.pc = wordOf (peek 0xFFFC#16 s) (peek 0xFFFD#16 s)

/-- R283, R471: the load is refused, with no machine, exactly when the mapper is not 0, a bank has another length, or the mirroring flag has neither
value; otherwise there is a machine that holds the banks it was given. -/
def Obligations.LoadRefusals : Prop :=
  ∀ (params : Params) (image : CartridgeImage),
    ((∃ s, loadCartridge params image = .next s) ↔
      image.mapperId = 0 ∧ (image.prg.length = 16384 ∨ image.prg.length = 32768) ∧ image.mirroring ≠ none ∧
        ∀ bytes, image.chr = some bytes → bytes.length = 8192) ∧
    (image.mapperId ≠ 0 → loadCartridge params image = .refused (.unsupportedMapper image.mapperId)) ∧
    (∀ s, loadCartridge params image = .next s →
      (∀ k < image.prg.length, s.cart.prg.read k = image.prg.getD k 0#8) ∧ s.cart.prgSize.bytes = image.prg.length ∧
      some s.cart.mirroring = image.mirroring ∧ s.params = params ∧
      (∀ bytes, image.chr = some bytes → s.cart.chrIsRam = image.chrIsRam ∧ ∀ k < 8192, s.chr.read k = bytes.getD k 0#8) ∧
      (image.chr = none → s.cart.chrIsRam = true ∧ ∀ k < 8192, s.chr.read k = params.ramInit))

/-! ## The picture registers -/

/-- R363, R364, R366, R367: control, mask and sprite-table address writes, and the status read: bit 7 is V, bit 6 S, bit 5 O, the rest 0; it clears V and
`w` and nothing else, so that a second read returns the same byte without bit 7. At every mirror of the registers. -/
def Obligations.ControlMaskStatus : Prop :=
  ∀ (a : Word) (d : Byte) (s : State),
    (picRegister a = some 0 → memWrite a d s = { s with
      ppu := { s.ppu with ctrl := d, t := (s.ppu.t &&& 0x73FF#15) ||| ((d &&& 0x03#8).setWidth 15 <<< 10) }
      nmiRequest := s.nmiRequest || (!s.ppu.ctrl.getLsbD 7 && d.getLsbD 7 && s.ppu.vblank) }) ∧
    (picRegister a = some 1 → memWrite a d s = { s with ppu := { s.ppu with mask := d } }) ∧
    (picRegister a = some 3 → memWrite a d s = { s with ppu := { s.ppu with oamAddr := d } }) ∧
    (picRegister a = some 2 →
      (memRead a s).2 = { s with ppu := { s.ppu with vblank := false, w := false } } ∧
      (∀ k < 8, (memRead a s).1.getLsbD k = ((k == 7 && s.ppu.vblank) || (k == 6 && s.ppu.spriteZeroHit) || (k == 5 && s.ppu.spriteOverflow))) ∧
      memRead a (memRead a s).2 = ((memRead a s).1 &&& 0x7F#8, (memRead a s).2))

/-- R370, R371, R372: the double-write registers and the toggle they share. -/
def Obligations.ScrollAndAddressWrites : Prop :=
  ∀ (a : Word) (d : Byte) (s : State),
    let coarse := (d >>> 3).setWidth 15
    let fine := (d &&& 0x07#8).setWidth 15
    (picRegister a = some 5 → s.ppu.w = false → memWrite a d s = { s with ppu := { s.ppu with
      t := (s.ppu.t &&& 0x7FE0#15) ||| coarse, fineX := (d &&& 0x07#8).setWidth 3, w := true } }) ∧
    (picRegister a = some 5 → s.ppu.w = true → memWrite a d s = { s with ppu := { s.ppu with
      t := (s.ppu.t &&& 0x0C1F#15) ||| (fine <<< 12) ||| (coarse <<< 5), w := false } }) ∧
    (picRegister a = some 6 → s.ppu.w = false → memWrite a d s = { s with ppu := { s.ppu with
      t := (s.ppu.t &&& 0x00FF#15) ||| ((d &&& 0x3F#8).setWidth 15 <<< 8), w := true } }) ∧
    (picRegister a = some 6 → s.ppu.w = true → memWrite a d s = { s with ppu := { s.ppu with
      t := (s.ppu.t &&& 0x7F00#15) ||| d.setWidth 15, v := (s.ppu.t &&& 0x7F00#15) ||| d.setWidth 15, w := false } })

/-- R376, R377, R378, R384, R385, R387, R388, R478: register 7. A read below 0x3F00 returns the buffer and refills it; a palette read is immediate and
refills the buffer from 0x1000 below; a write stores in pattern RAM (ignored when it is ROM), in the nametable the mirroring folds to, or in the palette
cell, six bits; either adds 1 or 32 to `v` modulo 32768. -/
def Obligations.DataPort : Prop :=
  ∀ (a : Word) (d : Byte) (s : State), picRegister a = some 7 →
    let p := s.ppu.v.toNat % 16384
    let next := BitVec.ofNat 15 (s.ppu.v.toNat + (if s.ppu.ctrl.getLsbD 2 then 32 else 1))
    let table := fun n : Nat => match s.cart.mirroring with | .horizontal => n / 2048 % 2 | .vertical => n / 1024 % 2
    let cell := fun n : Nat => table n * 1024 + n % 1024
    let entry := fun n : Nat => if n % 32 ∈ [16, 20, 24, 28] then n % 32 - 16 else n % 32
    let fetch := fun n : Nat => if n < 0x2000 then s.chr.read n else if n < 0x3F00 then s.ppu.vram.read (cell n) else s.ppu.pal.read (entry n)
    (memRead a s = if p < 0x3F00 then (s.ppu.buffer, { s with ppu := { s.ppu with buffer := fetch p, v := next } })
      else (fetch p, { s with ppu := { s.ppu with buffer := fetch (p - 0x1000), v := next } })) ∧
    (p < 0x2000 → memWrite a d s = { s with
      chr := if s.cart.chrIsRam then s.chr.write p d else s.chr, ppu := { s.ppu with v := next } }) ∧
    (0x2000 ≤ p → p < 0x3F00 → memWrite a d s = { s with ppu := { s.ppu with vram := s.ppu.vram.write (cell p) d, v := next } }) ∧
    (0x3F00 ≤ p → memWrite a d s = { s with ppu := { s.ppu with pal := s.ppu.pal.write (entry p) (d &&& 0x3F#8), v := next } })

/-- R368, R369, R335: sprite-table data, and sprite DMA: 256 bus reads in ascending order, each stored at OAMADDR, which steps round once; the stall
is set for the next step. From a page of plain memory the copy has no other effect, and OAM holds the page from OAMADDR on. (That one of the reads of
page 0x40 is of the Latch port, and not the 32 of R337's aside, is the model's choice: log 20.) -/
def Obligations.SpriteTableWrites : Prop :=
  (∀ (a : Word) (d : Byte) (s : State), picRegister a = some 4 →
    memRead a s = (s.ppu.oam.read s.ppu.oamAddr.toNat, s) ∧
    memWrite a d s = { s with ppu := { s.ppu with oam := s.ppu.oam.write s.ppu.oamAddr.toNat d, oamAddr := s.ppu.oamAddr + 1#8 } }) ∧
  (∀ (page : Byte) (s : State),
    memWrite 0x4014#16 page s = { (List.range 256).foldl (fun u i =>
        let r := memRead (wordOf (BitVec.ofNat 8 i) page) u
        { r.2 with ppu := { r.2.ppu with oam := r.2.ppu.oam.write r.2.ppu.oamAddr.toNat r.1, oamAddr := r.2.ppu.oamAddr + 1#8 } }) s with
      dmaStall := s.params.dmaStallCycles }) ∧
  (∀ (page : Byte) (s : State), page.toNat < 0x20 ∨ 0x80 ≤ page.toNat →
    ∃ oam, memWrite 0x4014#16 page s = { s with ppu := { s.ppu with oam := oam }, dmaStall := s.params.dmaStallCycles } ∧
      ∀ k < 256, oam.read ((s.ppu.oamAddr.toNat + k) % 256) = peek (wordOf (BitVec.ofNat 8 k) page) s)

/-- R492, R494, R497: writing 1 then 0 to 0x4016 captures the buttons; the n-th read of the port then returns button n, and 1 from the ninth read on, at
each port that has a latch. While the strobe is 1, or when a write sets it, a write captures; while it is 1 a read returns the first button and
captures; while it is 0 a read returns the captured bit the index names, whatever the buttons are by then, and past the eighth bit it returns 1 and changes
nothing; a write of 0 while it is 0 changes nothing. -/
def Obligations.InputLatchProtocol : Prop :=
  ∀ s : State,
    let strobed := memWrite 0x4016#16 0x00#8 (memWrite 0x4016#16 0x01#8 s)
    let after := fun (port : Word) n => Nat.iterate (fun u => (memRead port u).2) n strobed
    let bit := fun (b : Byte) n => if n < 8 then (if b.getLsbD n then 0x01#8 else 0x00#8) else 0x01#8
    strobed.latch.strobe = false ∧ strobed.latch.shift = s.buttons ∧ strobed.latch.idx = 0 ∧
    (∀ n, (memRead 0x4016#16 (after 0x4016#16 n)).1 = bit s.buttons n) ∧
    (s.params.pad2Present = true → ∀ n, (memRead 0x4017#16 (after 0x4017#16 n)).1 = bit s.buttons2 n) ∧
    (s.latch.strobe = true → memRead 0x4016#16 s =
      (if s.buttons.getLsbD 0 then 0x01#8 else 0x00#8, { s with latch := { s.latch with shift := s.buttons, idx := 0 } })) ∧
    (s.latch.strobe = true → s.params.pad2Present = true → memRead 0x4017#16 s =
      (if s.buttons2.getLsbD 0 then 0x01#8 else 0x00#8, { s with latch := { s.latch with shift2 := s.buttons2, idx2 := 0 } })) ∧
    (s.latch.strobe = false → s.latch.idx < 8 → memRead 0x4016#16 s =
      (if s.latch.shift.getLsbD s.latch.idx then 0x01#8 else 0x00#8, { s with latch := { s.latch with idx := s.latch.idx + 1 } })) ∧
    (s.latch.strobe = false → s.params.pad2Present = true → s.latch.idx2 < 8 → memRead 0x4017#16 s =
      (if s.latch.shift2.getLsbD s.latch.idx2 then 0x01#8 else 0x00#8, { s with latch := { s.latch with idx2 := s.latch.idx2 + 1 } })) ∧
    (s.latch.strobe = false → 8 ≤ s.latch.idx → memRead 0x4016#16 s = (0x01#8, s)) ∧
    (s.latch.strobe = false → s.params.pad2Present = true → 8 ≤ s.latch.idx2 → memRead 0x4017#16 s = (0x01#8, s)) ∧
    (∀ v : Byte, s.latch.strobe = false → v.getLsbD 0 = false → memWrite 0x4016#16 v s = s) ∧
    (∀ v : Byte, s.latch.strobe = true ∨ v.getLsbD 0 = true → ∃ l, memWrite 0x4016#16 v s = { s with latch := l } ∧
      l.strobe = v.getLsbD 0 ∧ l.shift = s.buttons ∧ l.idx = 0 ∧ (s.params.pad2Present = true → l.shift2 = s.buttons2 ∧ l.idx2 = 0))

/-! ## The dot machine -/

/-- R412, R413: a dot advances the position by one dot of 262 lines of 341; at scanline 241 dot 1 it sets V and counts the frame, and asks for an NMI if
CTRL.NMI is set; at scanline 261 dot 1 it clears V, S, O and the line buffer; no other dot changes V or the count. -/
def Obligations.FrameEvents : Prop :=
  ∀ (chr : Memory) (m : Mirroring) (g : Picture),
    let h := ppuDot chr m g
    (h.dot = if g.dot + 1 = 341 then 0 else g.dot + 1) ∧
    (h.scanline = if g.dot + 1 = 341 then (if g.scanline + 1 = 262 then 0 else g.scanline + 1) else g.scanline) ∧
    (g.scanline = 241 → g.dot = 1 → h.vblank = true ∧ h.frameCount = g.frameCount + 1 ∧ dotRequestsNmi g = g.ctrl.getLsbD 7) ∧
    (g.scanline = 261 → g.dot = 1 → h.vblank = false ∧ h.spriteZeroHit = false ∧ h.spriteOverflow = false ∧ h.sprites = [] ∧
      h.frameCount = g.frameCount) ∧
    (¬(g.dot = 1 ∧ (g.scanline = 241 ∨ g.scanline = 261)) → h.vblank = g.vblank ∧ h.frameCount = g.frameCount) ∧
    (dotRequestsNmi g = true → g.scanline = 241 ∧ g.dot = 1)

/-- R451, R411 part (3): a dot writes one cell of the FrameBuffer, `FB[L][d - 1]` at dots 1 to 256 of scanlines 0 to 239, and no dot writes another. With
InstructionsDoNotMoveThePicture: no register write alters a pixel already drawn. A dot changes no register a program writes but `v`
(ScrollIncrements says how), and no memory but FB. -/
def Obligations.OnePixelPerDot : Prop :=
  ∀ (chr : Memory) (m : Mirroring) (g : Picture),
    let h := ppuDot chr m g
    (∀ row col, ¬(g.scanline ≤ 239 ∧ 1 ≤ g.dot ∧ g.dot ≤ 256 ∧ row = g.scanline ∧ col = g.dot - 1) →
      fbRead h.fb row col = fbRead g.fb row col) ∧
    h.fb.length = g.fb.length ∧ h.ctrl = g.ctrl ∧ h.mask = g.mask ∧ h.oamAddr = g.oamAddr ∧ h.t = g.t ∧ h.fineX = g.fineX ∧ h.w = g.w ∧
    h.buffer = g.buffer ∧ h.oam = g.oam ∧ h.pal = g.pal ∧ h.vram = g.vram

/-- R445, R446, R447 with part (3) of R411: what a dot of a visible scanline writes into FB, and when it sets S. `bgp` and `bgpal` come from the
shifters at the fine X tap, after the shift of the same dot (its reload replaces bits 7:0, below every tap), and are 0 where the layer is off or
clipped; the sprite is the first of the line buffer with an opaque pixel here. No other dot changes S, but the frame start, which clears it. -/
def Obligations.PixelComposition : Prop :=
  ∀ (chr : Memory) (m : Mirroring) (g : Picture),
    let h := ppuDot chr m g
    let L := g.scanline
    let X := g.dot - 1
    let visible := L ≤ 239 ∧ 1 ≤ g.dot ∧ g.dot ≤ 256
    let bit := fun b : Bool => if b then 1 else 0
    let shown := fun (layer left : Bool) => layer && (decide (8 ≤ X) || left)
    let tapped := fun reg : BitVec 16 => bit ((if 2 ≤ g.dot then reg <<< 1 else reg).getLsbD (15 - g.fineX.toNat))
    let bg := shown (g.mask.getLsbD 3) (g.mask.getLsbD 1)
    let bgp := if bg then 2 * tapped g.bgHi + tapped g.bgLo else 0
    let bgpal := if bg then 2 * tapped g.atHi + tapped g.atLo else 0
    let sp := shown (g.mask.getLsbD 4) (g.mask.getLsbD 2)
    let pix := fun e : SpriteEntry => if e.x.toNat ≤ X ∧ X ≤ e.x.toNat + 7 then
      2 * bit (e.hi.getLsbD (7 - (X - e.x.toNat))) + bit (e.lo.getLsbD (7 - (X - e.x.toNat))) else 0
    let colour := fun idx => if g.mask.getLsbD 0 then g.pal.read idx &&& 0x30#8 else g.pal.read idx
    let background := if bgp = 0 then 0 else 4 * bgpal + bgp
    (visible → L < g.fb.length → (sp = false ∨ ∀ e ∈ g.sprites, pix e = 0) →
      fbRead h.fb L X = colour background ∧ h.spriteZeroHit = g.spriteZeroHit) ∧
    (∀ (before after : List SpriteEntry) (e : SpriteEntry), visible → L < g.fb.length → sp = true → g.sprites = before ++ e :: after →
      (∀ b ∈ before, pix b = 0) → pix e ≠ 0 →
      fbRead h.fb L X = colour (if bgp ≠ 0 ∧ e.attr.getLsbD 5 = true then background else 16 + 4 * (e.attr.toNat % 4) + pix e) ∧
      h.spriteZeroHit = (g.spriteZeroHit || (decide (bgp ≠ 0) && e.isZero && decide (X ≠ 255)))) ∧
    (¬visible → ¬(L = 261 ∧ g.dot = 1) → h.spriteZeroHit = g.spriteZeroHit)

/-- R440 to R443 with part (5) of R411: the dot 257 of a visible scanline, with rendering on, leaves in the line buffer the first eight entries in
range, in table order, each fetched with its flips, and sets O when a ninth exists; with rendering off it empties the buffer and leaves O. No other dot
changes either, but the frame start, which clears both. No dot changes OAM or OAMADDR. The horizontal flip exchanges bit i with bit 7 - i. -/
def Obligations.SpriteEvaluation : Prop :=
  ∀ (chr : Memory) (m : Mirroring) (g : Picture),
    let h := ppuDot chr m g
    let evaluates := g.scanline ≤ 239 ∧ g.dot = 257
    let on := g.mask.getLsbD 3 = true ∨ g.mask.getLsbD 4 = true
    let H := if g.ctrl.getLsbD 5 then 16 else 8
    let y := fun n : Nat => (g.oam.read (4 * n)).toNat
    let tile := fun n : Nat => (g.oam.read (4 * n + 1)).toNat
    let attr := fun n : Nat => g.oam.read (4 * n + 2)
    let row := fun n : Nat => if (attr n).getLsbD 7 then H - 1 - (g.scanline - y n) else g.scanline - y n
    let addr := fun n : Nat => if H = 8 then (if g.ctrl.getLsbD 3 then 4096 else 0) + 16 * tile n + row n
      else 4096 * (tile n % 2) + 16 * (tile n / 2 * 2 + row n / 8) + row n % 8
    let flip := fun (n : Nat) (b : Byte) => if (attr n).getLsbD 6 then rev8 b else b
    let entry := fun n : Nat => SpriteEntry.mk (g.oam.read (4 * n + 3)) (attr n) (flip n (chr.read (addr n)))
      (flip n (chr.read (addr n + 8))) (decide (n = 0))
    (¬evaluates → ¬(g.scanline = 261 ∧ g.dot = 1) → h.sprites = g.sprites ∧ h.spriteOverflow = g.spriteOverflow) ∧
    (g.scanline = 261 → g.dot = 1 → h.sprites = [] ∧ h.spriteOverflow = false) ∧
    (evaluates → ¬on → h.sprites = [] ∧ h.spriteOverflow = g.spriteOverflow) ∧
    (evaluates → on → ∃ inRange : List Nat, inRange.Pairwise (· < ·) ∧
      (∀ n, n ∈ inRange ↔ n < 64 ∧ y n ≤ g.scanline ∧ g.scanline < y n + H) ∧
      h.sprites = (inRange.take 8).map entry ∧ h.spriteOverflow = (g.spriteOverflow || decide (9 ≤ inRange.length))) ∧
    h.oam = g.oam ∧ h.oamAddr = g.oamAddr ∧
    (∀ b : Byte, ∀ i < 8, (rev8 b).getLsbD i = b.getLsbD (7 - i))

/-- R450: with both layers off a dot moves no shifter, latch or `v`, cannot set S or O, and every visible pixel is the backdrop. -/
def Obligations.RenderingDisabled : Prop :=
  ∀ (chr : Memory) (m : Mirroring) (g : Picture), g.mask.getLsbD 3 = false → g.mask.getLsbD 4 = false →
    let h := ppuDot chr m g
    h.bgLo = g.bgLo ∧ h.bgHi = g.bgHi ∧ h.atLo = g.atLo ∧ h.atHi = g.atHi ∧ h.ntLatch = g.ntLatch ∧ h.atLatch = g.atLatch ∧
    h.patLoLatch = g.patLoLatch ∧ h.patHiLatch = g.patHiLatch ∧ h.v = g.v ∧
    (h.spriteZeroHit = true → g.spriteZeroHit = true) ∧ (h.spriteOverflow = true → g.spriteOverflow = true) ∧
    (g.scanline ≤ 239 → g.dot = 257 → h.sprites = []) ∧
    (g.scanline ≤ 239 → g.scanline < g.fb.length → 1 ≤ g.dot → g.dot ≤ 256 →
      fbRead h.fb g.scanline (g.dot - 1) = if g.mask.getLsbD 0 then g.pal.read 0 &&& 0x30#8 else g.pal.read 0)

/-- R425, R426, R427 with the schedule of R411 part (4), R414: `v` written as fine Y, vertical and horizontal nametable bit, coarse Y and coarse X. No dot
changes fine X. -/
def Obligations.ScrollIncrements : Prop :=
  (∀ fy < 8, ∀ nv < 2, ∀ nh < 2, ∀ cy < 32, ∀ cx < 32,
    let pack := fun fy nv nh cy cx : Nat => BitVec.ofNat 15 (4096 * fy + 2048 * nv + 1024 * nh + 32 * cy + cx)
    incrementCoarseX (pack fy nv nh cy cx) = (if cx = 31 then pack fy nv (1 - nh) cy 0 else pack fy nv nh cy (cx + 1)) ∧
    incrementY (pack fy nv nh cy cx) = (if fy ≠ 7 then pack (fy + 1) nv nh cy cx else if cy = 29 then pack 0 (1 - nv) nh 0 cx
      else if cy = 31 then pack 0 nv nh 0 cx else pack 0 nv nh (cy + 1) cx)) ∧
  (∀ (chr : Memory) (m : Mirroring) (g : Picture),
    let line := g.scanline ≤ 239 ∨ g.scanline = 261
    let on := g.mask.getLsbD 3 = true ∨ g.mask.getLsbD 4 = true
    let h := ppuDot chr m g
    (¬(line ∧ on) → h.v = g.v) ∧
    (line → on → g.dot = 256 → h.v = incrementY (incrementCoarseX g.v)) ∧
    (line → on → g.dot = 257 → h.v = (g.v &&& 0x7BE0#15) ||| (g.t &&& 0x041F#15)) ∧
    (on → g.scanline = 261 → 280 ≤ g.dot → g.dot ≤ 304 → h.v = (g.v &&& 0x041F#15) ||| (g.t &&& 0x7BE0#15)) ∧
    (line → on → g.dot % 8 = 0 → (1 ≤ g.dot ∧ g.dot < 256) ∨ (321 ≤ g.dot ∧ g.dot ≤ 336) → h.v = incrementCoarseX g.v) ∧
    (¬(g.dot % 8 = 0 ∧ ((1 ≤ g.dot ∧ g.dot ≤ 256) ∨ (321 ≤ g.dot ∧ g.dot ≤ 336))) → g.dot ≠ 257 →
      ¬(g.scanline = 261 ∧ 280 ≤ g.dot ∧ g.dot ≤ 304) → h.v = g.v) ∧
    h.fineX = g.fineX)

/-- R422, R423, R424 with the schedule of R411 parts (2) and (4): the shifters shift, then reload from the latches as they stood; the fetches of a tile
fill the latches at phases 0, 2, 4 and 6. On the scanlines 240 to 260, and with rendering off, no dot changes a shifter or a latch. -/
def Obligations.BackgroundPipeline : Prop :=
  ∀ (chr : Memory) (m : Mirroring) (g : Picture),
    let h := ppuDot chr m g
    let d := g.dot
    let active := (g.scanline ≤ 239 ∨ g.scanline = 261) ∧ (g.mask.getLsbD 3 = true ∨ g.mask.getLsbD 4 = true)
    let shifts := active ∧ ((2 ≤ d ∧ d ≤ 257) ∨ (322 ≤ d ∧ d ≤ 337))
    let reloads := active ∧ ((9 ≤ d ∧ d ≤ 257 ∧ d % 8 = 1) ∨ d = 329 ∨ d = 337)
    let fetching := active ∧ ((1 ≤ d ∧ d ≤ 256) ∨ (321 ≤ d ∧ d ≤ 336))
    let lane := fun (reg : BitVec 16) (low : Byte) => (reg <<< 1) &&& 0xFF00#16 ||| low.setWidth 16
    let ones := fun b : Bool => if b then 0xFF#8 else 0x00#8
    let read := fun n : Nat => ppuRead chr m g (BitVec.ofNat 14 n)
    let v := g.v.toNat
    let pattern := (if g.ctrl.getLsbD 4 then 4096 else 0) + 16 * g.ntLatch.toNat + v / 4096
    (¬shifts → h.bgLo = g.bgLo ∧ h.bgHi = g.bgHi ∧ h.atLo = g.atLo ∧ h.atHi = g.atHi) ∧
    (shifts → ¬reloads → h.bgLo = g.bgLo <<< 1 ∧ h.bgHi = g.bgHi <<< 1 ∧ h.atLo = g.atLo <<< 1 ∧ h.atHi = g.atHi <<< 1) ∧
    (reloads → h.bgLo = lane g.bgLo g.patLoLatch ∧ h.bgHi = lane g.bgHi g.patHiLatch ∧
      h.atLo = lane g.atLo (ones (g.atLatch.getLsbD 0)) ∧ h.atHi = lane g.atHi (ones (g.atLatch.getLsbD 1))) ∧
    h.ntLatch = (if fetching ∧ d % 8 = 1 then read (0x2000 + v % 4096) else g.ntLatch) ∧
    h.atLatch = (if fetching ∧ d % 8 = 3 then
      (read (0x23C0 + v / 1024 % 4 * 1024 + v / 128 % 8 * 8 + v / 4 % 8) >>> (v / 64 % 2 * 4 + v / 2 % 2 * 2)).setWidth 2 else g.atLatch) ∧
    h.patLoLatch = (if fetching ∧ d % 8 = 5 then read pattern else g.patLoLatch) ∧
    h.patHiLatch = (if fetching ∧ d % 8 = 7 then read (pattern + 8) else g.patHiLatch)
end

