-- ==== Sys2Proof/Laws/Flags.lean ====
section
/-! SUPPORT. What each flag computation leaves in each flag of P (10_state.md R28). -/

namespace Sys2Proof.Machine

/-- Reading a flag after writing one. -/
theorem getFlag_setFlag (f g : Flag) (val : Bool) (p : Byte) : getFlag f (setFlag g val p) = if f = g then val else getFlag f p := by
  cases f <;> cases g <;> cases val <;> simp [getFlag, setFlag, flagBit]

/-- Two status bytes with the same flags are the same byte. -/
theorem status_ext {p q : Byte} (h : ∀ f, getFlag f p = getFlag f q) : p = q := by
  apply BitVec.eq_of_getLsbD_eq
  intro i hi
  have hc := h .c; have hz := h .z; have hI := h .i; have hd := h .d
  have hb := h .b; have hu := h .u; have hv := h .v; have hn := h .n
  simp only [getFlag, flagBit] at hc hz hI hd hb hu hv hn
  have : i = 0 ∨ i = 1 ∨ i = 2 ∨ i = 3 ∨ i = 4 ∨ i = 5 ∨ i = 6 ∨ i = 7 := by omega
  rcases this with rfl | rfl | rfl | rfl | rfl | rfl | rfl | rfl <;> assumption

theorem getFlag_setZN (f : Flag) (v p : Byte) :
    getFlag f (setZN v p) = if f = .n then v.getLsbD 7 else if f = .z then (v == 0#8) else getFlag f p := by
  simp only [setZN, getFlag_setFlag]

theorem flagsAre_setZN (v p : Byte) : FlagsAre p (setZN v p) [(.z, v == 0#8), (.n, v.getLsbD 7)] := by
  intro f; rw [getFlag_setZN]; cases f <;> rfl

/-- A status byte whose C was written, then Z and N. -/
theorem flagsAre_setZN_c (v p : Byte) (c : Bool) :
    FlagsAre p (setZN v (setFlag .c c p)) [(.z, v == 0#8), (.n, v.getLsbD 7), (.c, c)] := by
  intro f; rw [getFlag_setZN, getFlag_setFlag]; cases f <;> rfl

theorem flagsAre_setFlag (g : Flag) (val : Bool) (p : Byte) : FlagsAre p (setFlag g val p) [(g, val)] := by
  intro f; rw [getFlag_setFlag]; cases f <;> cases g <;> rfl

theorem flagsAre_refl (p : Byte) : FlagsAre p p [] := fun _ => rfl

theorem adcByte_fst (a m p : Byte) : (adcByte a m p).1 = BitVec.ofNat 8 (a.toNat + m.toNat + carryIn p) := rfl

theorem flagsAre_adcByte (a m p : Byte) : FlagsAre p (adcByte a m p).2
    [(.z, (adcByte a m p).1 == 0#8), (.n, (adcByte a m p).1.getLsbD 7),
     (.v, ((a ^^^ (adcByte a m p).1) &&& (m ^^^ (adcByte a m p).1) &&& 0x80#8) != 0#8),
     (.c, decide (0xFF < a.toNat + m.toNat + carryIn p))] := by
  intro f
  simp only [adcByte, getFlag_setZN, getFlag_setFlag]
  cases f <;> rfl

theorem flagsAre_compareFlags (r m p : Byte) :
    FlagsAre p (compareFlags r m p) [(.z, r - m == 0#8), (.n, (r - m).getLsbD 7), (.c, decide (m.toNat ≤ r.toNat))] :=
  flagsAre_setZN_c (r - m) p _

theorem flagsAre_bitFlags (a m p : Byte) :
    FlagsAre p (bitFlags a m p) [(.z, a &&& m == 0#8), (.n, m.getLsbD 7), (.v, m.getLsbD 6)] := by
  intro f
  simp only [bitFlags, getFlag_setFlag]
  cases f <;> rfl

theorem getFlag_pulledStatus (f : Flag) (m : Byte) :
    getFlag f (pulledStatus m) = if f = .b then false else if f = .u then true else getFlag f m := by
  cases f <;> simp [getFlag, pulledStatus, flagBit]

theorem getFlag_pushedStatus (f : Flag) (brk : Bool) (p : Byte) :
    getFlag f (pushedStatus brk p) = if f = .b then brk else if f = .u then true else getFlag f p := by
  cases f <;> cases brk <;> simp [getFlag, pushedStatus, flagBit]

/-- P comes back from the stack as it was, whichever way it was pushed, when B is 0 and U is 1 (R27). -/
theorem pulledStatus_pushedStatus (brk : Bool) {p : Byte} (hb : getFlag .b p = false) (hu : getFlag .u p = true) :
    pulledStatus (pushedStatus brk p) = p := by
  apply status_ext
  intro f
  rw [getFlag_pulledStatus, getFlag_pushedStatus]
  cases f <;> simp_all

/-- B and U of P are 0 and 1: what R27 says of P itself. -/
def StatusOk (p : Byte) : Prop := getFlag .b p = false ∧ getFlag .u p = true

theorem StatusOk.setFlag {p : Byte} (h : StatusOk p) {g : Flag} (val : Bool) (hg : g ≠ .b ∧ g ≠ .u) :
    StatusOk (Machine.setFlag g val p) := by
  unfold StatusOk at *
  rw [getFlag_setFlag, getFlag_setFlag, if_neg (fun e => hg.1 e.symm), if_neg (fun e => hg.2 e.symm)]
  exact h

theorem StatusOk.setZN {p : Byte} (h : StatusOk p) (v : Byte) : StatusOk (Machine.setZN v p) :=
  (h.setFlag _ (by decide)).setFlag _ (by decide)

theorem StatusOk.pulled (m : Byte) : StatusOk (pulledStatus m) := by
  unfold StatusOk; rw [getFlag_pulledStatus, getFlag_pulledStatus]; exact ⟨rfl, rfl⟩

theorem StatusOk.adcByte {p : Byte} (h : StatusOk p) (a m : Byte) : StatusOk (Machine.adcByte a m p).2 :=
  ((h.setFlag _ (by decide)).setFlag _ (by decide)).setZN _

theorem StatusOk.compareFlags {p : Byte} (h : StatusOk p) (r m : Byte) : StatusOk (Machine.compareFlags r m p) :=
  (h.setFlag _ (by decide)).setZN _

theorem StatusOk.bitFlags {p : Byte} (h : StatusOk p) (a m : Byte) : StatusOk (Machine.bitFlags a m p) :=
  ((h.setFlag _ (by decide)).setFlag _ (by decide)).setFlag _ (by decide)

/-- An operation of the form "C from the operand, Z and N from the result" keeps B and U (R214 to R217). -/
theorem StatusOk.shift {p : Byte} (h : StatusOk p) (r : Byte) (c : Bool) : StatusOk (Machine.setZN r (Machine.setFlag .c c p)) :=
  (h.setFlag _ (by decide)).setZN _

end Sys2Proof.Machine
end

