-- ==== Sys2Proof/Laws/Memory.lean ====
section
/-! SUPPORT. The laws of a memory and of the FrameBuffer: read after write, canonical form, bounds. -/

namespace Sys2Proof.Machine

@[simp] theorem Memory.read_nil (a : Nat) : Memory.read [] a = blankByte := rfl

theorem Memory.read_cons (c : Host.Cell) (m : Memory) (a : Nat) :
    Memory.read (c :: m) a = if c.1 = a then c.2 else Memory.read m a := rfl

theorem Memory.read_put (m : Memory) (a : Nat) (b : Byte) (k : Nat) (hm : Memory.read m a = blankByte) :
    Memory.read (Memory.put m a b) k = if k = a then b else Memory.read m k := by
  unfold Memory.put
  split
  · next h => split
              · next hk => rw [hk, hm, h]
              · rfl
  · rw [Memory.read_cons]
    simp only [eq_comm]

theorem Memory.read_erase (m : Memory) (a k : Nat) :
    Memory.read (Memory.erase m a) k = if k = a then blankByte else Memory.read m k := by
  induction m with
  | nil => simp [Memory.erase]
  | cons c rest ih =>
    unfold Memory.erase
    by_cases hc : c.1 = a
    · rw [if_pos hc, ih, Memory.read_cons]
      by_cases hk : k = a
      · rw [if_pos hk, if_pos hk]
      · rw [if_neg hk, if_neg hk, if_neg (fun h => hk (h.symm.trans hc))]
    · rw [if_neg hc, Memory.read_cons, Memory.read_cons, ih]
      by_cases hk : k = a
      · subst hk; rw [if_neg hc, if_pos rfl, if_pos rfl]
      · rw [if_neg hk, if_neg hk]

/-- Read after write, for every memory, canonical or not. -/
theorem Memory.read_write (m : Memory) (a : Nat) (b : Byte) (k : Nat) :
    Memory.read (Memory.write m a b) k = if k = a then b else Memory.read m k := by
  induction m with
  | nil => exact Memory.read_put [] a b k rfl
  | cons c rest ih =>
    unfold Memory.write
    split
    · next hlt =>
      rw [Memory.read_cons, Memory.read_cons, ih]
      by_cases hk : k = a
      · subst hk; rw [if_neg (Nat.ne_of_lt hlt), if_pos rfl, if_pos rfl]
      · rw [if_neg hk, if_neg hk]
    · rw [Memory.read_put _ _ _ _ (by rw [Memory.read_erase, if_pos rfl]), Memory.read_erase]
      by_cases hk : k = a
      · rw [if_pos hk, if_pos hk]
      · rw [if_neg hk, if_neg hk, if_neg hk]

@[simp] theorem Memory.read_write_same (m : Memory) (a : Nat) (b : Byte) : Memory.read (Memory.write m a b) a = b := by
  rw [Memory.read_write, if_pos rfl]

theorem Memory.read_write_other (m : Memory) {a k : Nat} (b : Byte) (h : k ≠ a) :
    Memory.read (Memory.write m a b) k = Memory.read m k := by rw [Memory.read_write, if_neg h]

/-- What the canonical form says of a memory with a first cell. -/
theorem Memory.wf_cons (c : Host.Cell) (m : Memory) :
    Memory.wf (c :: m) = true ↔ c.2 ≠ blankByte ∧ (∀ d ∈ m, c.1 < d.1) ∧ Memory.wf m = true := by
  rw [Memory.wf, Bool.and_eq_true, Bool.and_eq_true, List.all_eq_true]
  simp [and_assoc]

/-- A property of cells is kept by every operation of a memory. -/
theorem Memory.mem_erase {m : Memory} {a : Nat} {c : Host.Cell} (h : c ∈ Memory.erase m a) : c ∈ m ∧ c.1 ≠ a := by
  induction m with
  | nil => cases h
  | cons d rest ih =>
    unfold Memory.erase at h
    split at h
    · exact ⟨List.mem_cons_of_mem _ (ih h).1, (ih h).2⟩
    · next hd =>
      rcases List.mem_cons.mp h with rfl | h'
      · exact ⟨List.mem_cons_self, hd⟩
      · exact ⟨List.mem_cons_of_mem _ (ih h').1, (ih h').2⟩

theorem Memory.mem_put {m : Memory} {a : Nat} {b : Byte} {c : Host.Cell} (h : c ∈ Memory.put m a b) : c = (a, b) ∨ c ∈ m := by
  unfold Memory.put at h
  split at h
  · exact .inr h
  · exact List.mem_cons.mp h

theorem Memory.mem_write {m : Memory} {a : Nat} {b : Byte} {c : Host.Cell} (h : c ∈ Memory.write m a b) : c = (a, b) ∨ c ∈ m := by
  induction m with
  | nil => exact Memory.mem_put h
  | cons d rest ih =>
    unfold Memory.write at h
    split at h
    · rcases List.mem_cons.mp h with rfl | h'
      · exact .inr List.mem_cons_self
      · exact (ih h').imp id (List.mem_cons_of_mem _)
    · exact (Memory.mem_put h).imp id (fun h' => (Memory.mem_erase h').1)

/-- A test that every cell passes and the written cell passes, every cell passes afterwards. -/
theorem Memory.all_write {q : Host.Cell → Bool} {m : Memory} {a : Nat} {b : Byte} (hm : m.all q = true) (hq : q (a, b) = true) :
    (Memory.write m a b).all q = true := by
  rw [List.all_eq_true] at hm ⊢
  intro c hc
  rcases Memory.mem_write hc with rfl | h
  · exact hq
  · exact hm c h

theorem Memory.wf_erase {m : Memory} (a : Nat) (h : m.wf = true) : (Memory.erase m a).wf = true := by
  induction m with
  | nil => rfl
  | cons c rest ih =>
    obtain ⟨h1, h2, h3⟩ := (Memory.wf_cons c rest).mp h
    unfold Memory.erase
    split
    · exact ih h3
    · exact (Memory.wf_cons _ _).mpr ⟨h1, fun d hd => h2 d (Memory.mem_erase hd).1, ih h3⟩

theorem Memory.wf_put {m : Memory} {a : Nat} {b : Byte} (h : m.wf = true) (hlt : ∀ d ∈ m, a < d.1) : (Memory.put m a b).wf = true := by
  unfold Memory.put
  split
  · exact h
  · next hb => exact (Memory.wf_cons _ _).mpr ⟨hb, hlt, h⟩

/-- Writing keeps the canonical form. -/
theorem Memory.wf_write {m : Memory} (a : Nat) (b : Byte) (h : m.wf = true) : (Memory.write m a b).wf = true := by
  induction m with
  | nil => exact Memory.wf_put rfl (fun d hd => absurd hd (by simp))
  | cons c rest ih =>
    obtain ⟨h1, h2, h3⟩ := (Memory.wf_cons c rest).mp h
    unfold Memory.write
    split
    · next hlt =>
      refine (Memory.wf_cons _ _).mpr ⟨h1, fun d hd => ?_, ih h3⟩
      rcases Memory.mem_write hd with rfl | hd'
      · exact hlt
      · exact h2 d hd'
    · next hge =>
      refine Memory.wf_put (Memory.wf_erase a h) (fun d hd => ?_)
      obtain ⟨hd1, hd2⟩ := Memory.mem_erase hd
      rcases List.mem_cons.mp hd1 with rfl | hd'
      · omega
      · have := h2 d hd'; omega

theorem Memory.ok_iff (n : Nat) (m : Memory) : m.ok n = true ↔ m.wf = true ∧ m.below n = true := by
  rw [Memory.ok, Bool.and_eq_true]

/-- Writing below the bound keeps a memory canonical and within its bound. -/
theorem Memory.ok_write {n : Nat} {m : Memory} {a : Nat} (b : Byte) (h : m.ok n = true) (ha : a < n) :
    (Memory.write m a b).ok n = true := by
  rw [Memory.ok_iff] at h ⊢
  exact ⟨Memory.wf_write a b h.1, Memory.all_write h.2 (by simpa using ha)⟩

theorem Memory.sixBit_write {m : Memory} {a : Nat} {b : Byte} (h : m.sixBit = true) (hb : b.toNat < 64) :
    (Memory.write m a b).sixBit = true := Memory.all_write h (by simpa using hb)

/-- A cell of a six-bit memory reads as a six-bit value. -/
theorem Memory.sixBit_read {m : Memory} (h : m.sixBit = true) (a : Nat) : (m.read a).toNat < 64 := by
  induction m with
  | nil => simp [blankByte]
  | cons c rest ih =>
    rw [Memory.sixBit, List.all_cons, Bool.and_eq_true] at h
    rw [Memory.read_cons]
    split
    · simpa using h.1
    · exact ih h.2

/-- Two canonical memories that read the same everywhere are equal. -/
theorem Memory.ext_of_wf {m n : Memory} (hm : m.wf = true) (hn : n.wf = true) (h : ∀ a, m.read a = n.read a) : m = n := by
  have below : ∀ (q : Memory) (a : Nat), (∀ d ∈ q, a < d.1) → q.read a = blankByte := by
    intro q a hq
    induction q with
    | nil => rfl
    | cons c rest ih =>
      have hc := hq c List.mem_cons_self
      rw [Memory.read_cons, if_neg (by omega)]
      exact ih (fun d hd => hq d (List.mem_cons_of_mem _ hd))
  induction m generalizing n with
  | nil =>
    cases n with
    | nil => rfl
    | cons d n' =>
      obtain ⟨h1, -, -⟩ := (Memory.wf_cons d n').mp hn
      have := h d.1
      rw [Memory.read_nil, Memory.read_cons, if_pos rfl] at this
      exact absurd this.symm h1
  | cons c m' ih =>
    obtain ⟨hc1, hc2, hc3⟩ := (Memory.wf_cons c m').mp hm
    cases n with
    | nil =>
      have := h c.1
      rw [Memory.read_nil, Memory.read_cons, if_pos rfl] at this
      exact absurd this hc1
    | cons d n' =>
      obtain ⟨hd1, hd2, hd3⟩ := (Memory.wf_cons d n').mp hn
      have key : c.1 = d.1 := by
        rcases Nat.lt_trichotomy c.1 d.1 with hlt | heq | hgt
        · have := h c.1
          rw [Memory.read_cons, if_pos rfl, below (d :: n') c.1] at this
          · exact absurd this hc1
          · intro e he
            rcases List.mem_cons.mp he with rfl | he'
            · exact hlt
            · exact Nat.lt_trans hlt (hd2 e he')
        · exact heq
        · have := h d.1
          rw [Memory.read_cons d, if_pos rfl, below (c :: m') d.1] at this
          · exact absurd this.symm hd1
          · intro e he
            rcases List.mem_cons.mp he with rfl | he'
            · exact hgt
            · exact Nat.lt_trans hgt (hc2 e he')
      have hv : c.2 = d.2 := by
        have := h c.1
        rwa [Memory.read_cons, if_pos rfl, Memory.read_cons, if_pos key.symm] at this
      have htail : m' = n' := by
        refine ih hc3 hd3 (fun a => ?_)
        by_cases ha : c.1 = a
        · subst ha
          rw [below m' _ hc2, below n' _ (by rw [key]; exact hd2)]
        · have := h a
          rwa [Memory.read_cons, if_neg ha, Memory.read_cons, if_neg (by rwa [← key])] at this
      rw [htail, Prod.ext key hv]

/-! The FrameBuffer. -/

@[simp] theorem fbWrite_length (fb : List Memory) (row col : Nat) (c : Byte) : (fbWrite fb row col c).length = fb.length := by
  induction fb generalizing row with
  | nil => cases row <;> rfl
  | cons r rs ih => cases row <;> simp [fbWrite, ih]

theorem fbRead_fbWrite (fb : List Memory) (row col : Nat) (c : Byte) (r k : Nat) (h : row < fb.length) :
    fbRead (fbWrite fb row col c) r k = if r = row ∧ k = col then c else fbRead fb r k := by
  induction fb generalizing row r with
  | nil => simp at h
  | cons m ms ih =>
    cases row with
    | zero =>
      cases r with
      | zero => simp [fbWrite, fbRead, Memory.read_write]
      | succ r => simp [fbWrite, fbRead]
    | succ row =>
      cases r with
      | zero => simp [fbWrite, fbRead]
      | succ r =>
        simp only [fbWrite, fbRead]
        rw [ih row r (by simpa using h)]
        simp

theorem fbRead_fbWrite_other (fb : List Memory) (row col : Nat) (c : Byte) (r k : Nat) (h : ¬(r = row ∧ k = col)) :
    fbRead (fbWrite fb row col c) r k = fbRead fb r k := by
  induction fb generalizing row r with
  | nil => cases row <;> rfl
  | cons m ms ih =>
    cases row with
    | zero =>
      cases r with
      | zero => simp only [fbWrite, fbRead]; exact Memory.read_write_other _ _ (fun hk => h ⟨rfl, hk⟩)
      | succ r => rfl
    | succ row =>
      cases r with
      | zero => rfl
      | succ r => exact ih row r (fun hh => h ⟨by omega, hh.2⟩)

theorem rowOk_write {r : Memory} {col : Nat} {c : Byte} (h : rowOk r = true) (hcol : col < Config.fbWidth) (hc : c.toNat < 64) :
    rowOk (r.write col c) = true := by
  rw [rowOk, Bool.and_eq_true] at h ⊢
  exact ⟨Memory.ok_write c h.1 hcol, Memory.sixBit_write h.2 hc⟩

/-- Writing a six-bit colour keeps every row of the FrameBuffer well formed. -/
theorem fbCells_write {fb : List Memory} {row col : Nat} {c : Byte} (h : fb.all rowOk = true) (hcol : col < Config.fbWidth)
    (hc : c.toNat < 64) : (fbWrite fb row col c).all rowOk = true := by
  induction fb generalizing row with
  | nil => cases row <;> rfl
  | cons m ms ih =>
    rw [List.all_cons, Bool.and_eq_true] at h
    cases row with
    | zero => rw [fbWrite, List.all_cons, Bool.and_eq_true]; exact ⟨rowOk_write h.1 hcol hc, h.2⟩
    | succ row => rw [fbWrite, List.all_cons, Bool.and_eq_true]; exact ⟨h.1, ih h.2⟩

/-! What the loader and RAM_INIT put into a memory. -/

theorem Memory.ofBytes_ok (bs : List Byte) : ∀ (a : Nat), (Memory.ofBytes a bs).wf = true ∧
    ∀ c ∈ Memory.ofBytes a bs, a ≤ c.1 ∧ c.1 < a + bs.length := by
  induction bs with
  | nil => intro a; exact ⟨rfl, fun c hc => absurd hc (by simp [Memory.ofBytes])⟩
  | cons b bs ih =>
    intro a
    obtain ⟨h1, h2⟩ := ih (a + 1)
    refine ⟨Memory.wf_put h1 (fun d hd => by have := (h2 d hd).1; omega), fun c hc => ?_⟩
    rcases Memory.mem_put hc with rfl | hc'
    · simp
    · have := h2 c hc'
      simp only [List.length_cons]
      omega

theorem Memory.fillFrom_ok (b : Byte) (n : Nat) : ∀ (a : Nat), (Memory.fillFrom a b n).wf = true ∧
    ∀ c ∈ Memory.fillFrom a b n, a ≤ c.1 ∧ c.1 < a + n := by
  induction n with
  | zero => intro a; exact ⟨rfl, fun c hc => absurd hc (by simp [Memory.fillFrom])⟩
  | succ n ih =>
    intro a
    obtain ⟨h1, h2⟩ := ih (a + 1)
    refine ⟨Memory.wf_put h1 (fun d hd => by have := (h2 d hd).1; omega), fun c hc => ?_⟩
    rcases Memory.mem_put hc with rfl | hc'
    · simp
    · have := h2 c hc'; omega

theorem Memory.fill_ok (n : Nat) (b : Byte) : (Memory.fill n b).ok n = true := by
  unfold Memory.fill
  split
  · rfl
  · obtain ⟨h1, h2⟩ := Memory.fillFrom_ok b n 0
    rw [Memory.ok_iff]
    refine ⟨h1, ?_⟩
    rw [Memory.below, List.all_eq_true]
    intro c hc
    simpa using (h2 c hc).2

theorem Memory.ofBytes_within (bs : List Byte) {n : Nat} (h : bs.length ≤ n) : (Memory.ofBytes 0 bs).ok n = true := by
  obtain ⟨h1, h2⟩ := Memory.ofBytes_ok bs 0
  rw [Memory.ok_iff]
  refine ⟨h1, ?_⟩
  rw [Memory.below, List.all_eq_true]
  intro c hc
  have := (h2 c hc).2
  simp only [decide_eq_true_eq]
  omega

theorem Memory.read_fillFrom (b : Byte) (n : Nat) : ∀ (a k : Nat),
    (Memory.fillFrom a b n).read k = if a ≤ k ∧ k < a + n then b else blankByte := by
  induction n with
  | zero => intro a k; rw [if_neg (by omega)]; rfl
  | succ n ih =>
    intro a k
    rw [Memory.fillFrom, Memory.read_put _ _ _ _ (by rw [ih, if_neg (by omega)]), ih]
    by_cases hk : k = a
    · rw [if_pos hk, if_pos (by omega)]
    · rw [if_neg hk]
      by_cases h2 : a + 1 ≤ k ∧ k < a + 1 + n
      · rw [if_pos h2, if_pos (by omega)]
      · rw [if_neg h2, if_neg (by omega)]

/-- A memory filled with RAM_INIT reads RAM_INIT in every cell of its size. -/
theorem Memory.read_fill (n : Nat) (b : Byte) (k : Nat) (h : k < n) : (Memory.fill n b).read k = b := by
  unfold Memory.fill
  split
  · next hb => rw [hb]; rfl
  · rw [Memory.read_fillFrom, if_pos (by omega)]

end Sys2Proof.Machine
end

