-- ==== Sys2Proof/Laws/State.lean ====
section
/-! SUPPORT. One lemma per field per named update of State, true by definition: no later proof unfolds a record update. -/

namespace Sys2Proof.Machine

variable (s : State)

@[simp] theorem setP_a (p : Byte) : (setP p s).a = s.a := rfl
@[simp] theorem setP_x (p : Byte) : (setP p s).x = s.x := rfl
@[simp] theorem setP_y (p : Byte) : (setP p s).y = s.y := rfl
@[simp] theorem setP_sp (p : Byte) : (setP p s).sp = s.sp := rfl
@[simp] theorem setP_p (p : Byte) : (setP p s).p = p := rfl
@[simp] theorem setP_pc (p : Byte) : (setP p s).pc = s.pc := rfl
@[simp] theorem setP_cyc (p : Byte) : (setP p s).cyc = s.cyc := rfl
@[simp] theorem setP_rem (p : Byte) : (setP p s).rem = s.rem := rfl
@[simp] theorem setP_dmaStall (p : Byte) : (setP p s).dmaStall = s.dmaStall := rfl
@[simp] theorem setP_fault (p : Byte) : (setP p s).fault = s.fault := rfl
@[simp] theorem setP_faultOpcode (p : Byte) : (setP p s).faultOpcode = s.faultOpcode := rfl
@[simp] theorem setP_faultPc (p : Byte) : (setP p s).faultPc = s.faultPc := rfl
@[simp] theorem setP_nmiRequest (p : Byte) : (setP p s).nmiRequest = s.nmiRequest := rfl
@[simp] theorem setP_irqRequest (p : Byte) : (setP p s).irqRequest = s.irqRequest := rfl
@[simp] theorem setP_ram (p : Byte) : (setP p s).ram = s.ram := rfl
@[simp] theorem setP_ppu (p : Byte) : (setP p s).ppu = s.ppu := rfl
@[simp] theorem setP_chr (p : Byte) : (setP p s).chr = s.chr := rfl
@[simp] theorem setP_cart (p : Byte) : (setP p s).cart = s.cart := rfl
@[simp] theorem setP_latch (p : Byte) : (setP p s).latch = s.latch := rfl
@[simp] theorem setP_buttons (p : Byte) : (setP p s).buttons = s.buttons := rfl
@[simp] theorem setP_buttons2 (p : Byte) : (setP p s).buttons2 = s.buttons2 := rfl
@[simp] theorem setP_params (p : Byte) : (setP p s).params = s.params := rfl

@[simp] theorem setPc_a (w : Word) : (setPc w s).a = s.a := rfl
@[simp] theorem setPc_x (w : Word) : (setPc w s).x = s.x := rfl
@[simp] theorem setPc_y (w : Word) : (setPc w s).y = s.y := rfl
@[simp] theorem setPc_sp (w : Word) : (setPc w s).sp = s.sp := rfl
@[simp] theorem setPc_p (w : Word) : (setPc w s).p = s.p := rfl
@[simp] theorem setPc_pc (w : Word) : (setPc w s).pc = w := rfl
@[simp] theorem setPc_cyc (w : Word) : (setPc w s).cyc = s.cyc := rfl
@[simp] theorem setPc_rem (w : Word) : (setPc w s).rem = s.rem := rfl
@[simp] theorem setPc_dmaStall (w : Word) : (setPc w s).dmaStall = s.dmaStall := rfl
@[simp] theorem setPc_fault (w : Word) : (setPc w s).fault = s.fault := rfl
@[simp] theorem setPc_faultOpcode (w : Word) : (setPc w s).faultOpcode = s.faultOpcode := rfl
@[simp] theorem setPc_faultPc (w : Word) : (setPc w s).faultPc = s.faultPc := rfl
@[simp] theorem setPc_nmiRequest (w : Word) : (setPc w s).nmiRequest = s.nmiRequest := rfl
@[simp] theorem setPc_irqRequest (w : Word) : (setPc w s).irqRequest = s.irqRequest := rfl
@[simp] theorem setPc_ram (w : Word) : (setPc w s).ram = s.ram := rfl
@[simp] theorem setPc_ppu (w : Word) : (setPc w s).ppu = s.ppu := rfl
@[simp] theorem setPc_chr (w : Word) : (setPc w s).chr = s.chr := rfl
@[simp] theorem setPc_cart (w : Word) : (setPc w s).cart = s.cart := rfl
@[simp] theorem setPc_latch (w : Word) : (setPc w s).latch = s.latch := rfl
@[simp] theorem setPc_buttons (w : Word) : (setPc w s).buttons = s.buttons := rfl
@[simp] theorem setPc_buttons2 (w : Word) : (setPc w s).buttons2 = s.buttons2 := rfl
@[simp] theorem setPc_params (w : Word) : (setPc w s).params = s.params := rfl

@[simp] theorem writeReg_p (r : Reg) (v : Byte) : (writeReg r v s).p = s.p := by cases r <;> rfl
@[simp] theorem writeReg_pc (r : Reg) (v : Byte) : (writeReg r v s).pc = s.pc := by cases r <;> rfl
@[simp] theorem writeReg_cyc (r : Reg) (v : Byte) : (writeReg r v s).cyc = s.cyc := by cases r <;> rfl
@[simp] theorem writeReg_rem (r : Reg) (v : Byte) : (writeReg r v s).rem = s.rem := by cases r <;> rfl
@[simp] theorem writeReg_dmaStall (r : Reg) (v : Byte) : (writeReg r v s).dmaStall = s.dmaStall := by cases r <;> rfl
@[simp] theorem writeReg_fault (r : Reg) (v : Byte) : (writeReg r v s).fault = s.fault := by cases r <;> rfl
@[simp] theorem writeReg_faultOpcode (r : Reg) (v : Byte) : (writeReg r v s).faultOpcode = s.faultOpcode := by cases r <;> rfl
@[simp] theorem writeReg_faultPc (r : Reg) (v : Byte) : (writeReg r v s).faultPc = s.faultPc := by cases r <;> rfl
@[simp] theorem writeReg_nmiRequest (r : Reg) (v : Byte) : (writeReg r v s).nmiRequest = s.nmiRequest := by cases r <;> rfl
@[simp] theorem writeReg_irqRequest (r : Reg) (v : Byte) : (writeReg r v s).irqRequest = s.irqRequest := by cases r <;> rfl
@[simp] theorem writeReg_ram (r : Reg) (v : Byte) : (writeReg r v s).ram = s.ram := by cases r <;> rfl
@[simp] theorem writeReg_ppu (r : Reg) (v : Byte) : (writeReg r v s).ppu = s.ppu := by cases r <;> rfl
@[simp] theorem writeReg_chr (r : Reg) (v : Byte) : (writeReg r v s).chr = s.chr := by cases r <;> rfl
@[simp] theorem writeReg_cart (r : Reg) (v : Byte) : (writeReg r v s).cart = s.cart := by cases r <;> rfl
@[simp] theorem writeReg_latch (r : Reg) (v : Byte) : (writeReg r v s).latch = s.latch := by cases r <;> rfl
@[simp] theorem writeReg_buttons (r : Reg) (v : Byte) : (writeReg r v s).buttons = s.buttons := by cases r <;> rfl
@[simp] theorem writeReg_buttons2 (r : Reg) (v : Byte) : (writeReg r v s).buttons2 = s.buttons2 := by cases r <;> rfl
@[simp] theorem writeReg_params (r : Reg) (v : Byte) : (writeReg r v s).params = s.params := by cases r <;> rfl
@[simp] theorem writeReg_a_a (v : Byte) : (writeReg .a v s).a = v := rfl
@[simp] theorem writeReg_a_x (v : Byte) : (writeReg .a v s).x = s.x := rfl
@[simp] theorem writeReg_a_y (v : Byte) : (writeReg .a v s).y = s.y := rfl
@[simp] theorem writeReg_a_sp (v : Byte) : (writeReg .a v s).sp = s.sp := rfl
@[simp] theorem writeReg_x_a (v : Byte) : (writeReg .x v s).a = s.a := rfl
@[simp] theorem writeReg_x_x (v : Byte) : (writeReg .x v s).x = v := rfl
@[simp] theorem writeReg_x_y (v : Byte) : (writeReg .x v s).y = s.y := rfl
@[simp] theorem writeReg_x_sp (v : Byte) : (writeReg .x v s).sp = s.sp := rfl
@[simp] theorem writeReg_y_a (v : Byte) : (writeReg .y v s).a = s.a := rfl
@[simp] theorem writeReg_y_x (v : Byte) : (writeReg .y v s).x = s.x := rfl
@[simp] theorem writeReg_y_y (v : Byte) : (writeReg .y v s).y = v := rfl
@[simp] theorem writeReg_y_sp (v : Byte) : (writeReg .y v s).sp = s.sp := rfl
@[simp] theorem writeReg_s_a (v : Byte) : (writeReg .s v s).a = s.a := rfl
@[simp] theorem writeReg_s_x (v : Byte) : (writeReg .s v s).x = s.x := rfl
@[simp] theorem writeReg_s_y (v : Byte) : (writeReg .s v s).y = s.y := rfl
@[simp] theorem writeReg_s_sp (v : Byte) : (writeReg .s v s).sp = v := rfl

/-- Reading the register just written gives the value. -/
@[simp] theorem readReg_writeReg_same (r : Reg) (v : Byte) : readReg r (writeReg r v s) = v := by cases r <;> rfl

/-- Writing one register leaves the others. -/
theorem readReg_writeReg_other {r q : Reg} (v : Byte) (h : q ≠ r) : readReg q (writeReg r v s) = readReg q s := by
  cases r <;> cases q <;> first | rfl | exact absurd rfl h

@[simp] theorem readReg_a : readReg .a s = s.a := rfl
@[simp] theorem readReg_x : readReg .x s = s.x := rfl
@[simp] theorem readReg_y : readReg .y s = s.y := rfl
@[simp] theorem readReg_s : readReg .s s = s.sp := rfl
@[simp] theorem readReg_setP (r : Reg) (p : Byte) : readReg r (setP p s) = readReg r s := by cases r <;> rfl
@[simp] theorem readReg_setPc (r : Reg) (w : Word) : readReg r (setPc w s) = readReg r s := by cases r <;> rfl

end Sys2Proof.Machine
end

