-- ==== Sys2Proof/Laws/Ops.lean ====
section
/-! SUPPORT. What a bus read, a bus write, the stack operations, an exception and its return can do, each said once. -/

namespace Sys2Proof.Machine

variable (a : Word) (v : Byte) (s : State)

/-! Bytes of a word. -/

@[simp] theorem wordOf_toNat (l h : Byte) : (wordOf l h).toNat = h.toNat * 256 + l.toNat := by
  simp only [wordOf, BitVec.toNat_append]
  rw [Nat.shiftLeft_eq, Nat.mul_comm, ← Nat.two_pow_add_eq_or_of_lt l.isLt h.toNat, Nat.mul_comm]

@[simp] theorem zext16_toNat (b : Byte) : (zext16 b).toNat = b.toNat := by
  have := b.isLt
  simp only [zext16, BitVec.toNat_setWidth]
  omega

@[simp] theorem hiByte_wordOf (l h : Byte) : hiByte (wordOf l h) = h := by
  apply BitVec.eq_of_getLsbD_eq; intro i hi
  simp only [hiByte, wordOf, BitVec.getLsbD_extractLsb', BitVec.getLsbD_append]
  rw [if_neg (by omega), show 8 + i - 8 = i by omega]; simp [hi]

@[simp] theorem loByte_wordOf (l h : Byte) : loByte (wordOf l h) = l := by
  apply BitVec.eq_of_getLsbD_eq; intro i hi
  simp only [loByte, wordOf, BitVec.getLsbD_extractLsb', BitVec.getLsbD_append]
  rw [if_pos (by omega)]; simp [hi]

/-- A word is its two bytes. -/
@[simp] theorem wordOf_bytes (w : Word) : wordOf (loByte w) (hiByte w) = w := by
  apply BitVec.eq_of_getLsbD_eq; intro i hi
  simp only [wordOf, BitVec.getLsbD_append, loByte, hiByte, BitVec.getLsbD_extractLsb']
  split
  · next h => simp [h]
  · next h =>
    have h1 : i - 8 < 8 := by omega
    have h2 : 8 + (i - 8) = i := by omega
    simp [h1, h2]

/-! Reads. -/

/-- A read of work memory (R81). -/
theorem memRead_ram (h : a.toNat ≤ 0x1FFF) : memRead a s = (s.ram.read (a.toNat % Config.ramSize), s) := by
  rw [memRead, if_pos h]

/-- A read of a picture register, at any of its mirrors (R82). -/
theorem memRead_ppu (h1 : 0x2000 ≤ a.toNat) (h2 : a.toNat ≤ 0x3FFF) : memRead a s = ppuRegRead (a.toNat % 8) s := by
  rw [memRead, if_neg (by omega), if_pos h2]

/-- A read of the program window (R472). -/
theorem memRead_prg (h : 0x8000 ≤ a.toNat) : memRead a s = (s.cart.prg.read (prgIndex s.cart.prgSize a), s) := by
  have h1 : a ≠ 0x4016#16 := by rintro rfl; simp at h
  have h2 : a ≠ 0x4017#16 := by rintro rfl; simp at h
  rw [memRead, if_neg (by omega), if_neg (by omega), if_neg h1, if_neg h2, if_neg (by omega), readPrg, if_pos h]

/-- What a picture register's read can change: the vblank flag, the write toggle, the read buffer and `v`. -/
theorem ppuRegRead_snd (r : Nat) : (ppuRegRead r s).2 = { s with ppu := { s.ppu with
    vblank := (ppuRegRead r s).2.ppu.vblank, w := (ppuRegRead r s).2.ppu.w, buffer := (ppuRegRead r s).2.ppu.buffer,
    v := (ppuRegRead r s).2.ppu.v } } := by
  unfold ppuRegRead
  split
  · rfl
  · rfl
  · simp only [dataRead]; split <;> rfl
  · rfl

theorem latchRead_snd : (latchRead s).2 = { s with latch := { s.latch with
    shift := (latchRead s).2.latch.shift, idx := (latchRead s).2.latch.idx } } := by
  simp only [latchRead]; split
  · rfl
  · split <;> rfl

theorem latch2Read_snd : (latch2Read s).2 = { s with latch := { s.latch with
    shift2 := (latch2Read s).2.latch.shift2, idx2 := (latch2Read s).2.latch.idx2 } } := by
  simp only [latch2Read]; split
  · rfl
  · split <;> rfl

/-- Everything a bus read can change: four fields of the Picture Generator and the latch's shift state (R76). -/
theorem memRead_snd : (memRead a s).2 = { s with
    ppu := { s.ppu with
      vblank := (memRead a s).2.ppu.vblank, w := (memRead a s).2.ppu.w, buffer := (memRead a s).2.ppu.buffer,
      v := (memRead a s).2.ppu.v }
    latch := { s.latch with
      shift := (memRead a s).2.latch.shift, idx := (memRead a s).2.latch.idx, shift2 := (memRead a s).2.latch.shift2,
      idx2 := (memRead a s).2.latch.idx2 } } := by
  unfold memRead
  split
  · rfl
  · split
    · rw [ppuRegRead_snd]
    · split
      · rw [latchRead_snd]
      · split
        · split
          · rw [latch2Read_snd]
          · rfl
        · split <;> rfl

/-- A read without a side effect changes nothing (R76, R322). -/
theorem memRead_pure (h : readHasSideEffect a s = false) : (memRead a s).2 = s := by
  simp only [readHasSideEffect, Bool.or_eq_false_iff, Bool.and_eq_false_iff, decide_eq_false_iff_not] at h
  obtain ⟨⟨h1, h2⟩, h3⟩ := h
  unfold memRead
  split
  · rfl
  · split
    · have hr : a.toNat % 8 ≠ 2 ∧ a.toNat % 8 ≠ 7 := by omega
      unfold ppuRegRead
      split
      · omega
      · rfl
      · omega
      · rfl
    · split
      · rw [if_neg]
        intro hp
        rcases h3 with h3 | h3
        · exact h3 ‹_›
        · rw [hp] at h3; cases h3
      · split <;> rfl

@[simp] theorem memRead_a : (memRead a s).2.a = s.a := by rw [memRead_snd]
@[simp] theorem memRead_x : (memRead a s).2.x = s.x := by rw [memRead_snd]
@[simp] theorem memRead_y : (memRead a s).2.y = s.y := by rw [memRead_snd]
@[simp] theorem memRead_sp : (memRead a s).2.sp = s.sp := by rw [memRead_snd]
@[simp] theorem memRead_p : (memRead a s).2.p = s.p := by rw [memRead_snd]
@[simp] theorem memRead_pc : (memRead a s).2.pc = s.pc := by rw [memRead_snd]
@[simp] theorem memRead_cyc : (memRead a s).2.cyc = s.cyc := by rw [memRead_snd]
@[simp] theorem memRead_rem : (memRead a s).2.rem = s.rem := by rw [memRead_snd]
@[simp] theorem memRead_dmaStall : (memRead a s).2.dmaStall = s.dmaStall := by rw [memRead_snd]
@[simp] theorem memRead_fault : (memRead a s).2.fault = s.fault := by rw [memRead_snd]
@[simp] theorem memRead_faultOpcode : (memRead a s).2.faultOpcode = s.faultOpcode := by rw [memRead_snd]
@[simp] theorem memRead_faultPc : (memRead a s).2.faultPc = s.faultPc := by rw [memRead_snd]
@[simp] theorem memRead_nmiRequest : (memRead a s).2.nmiRequest = s.nmiRequest := by rw [memRead_snd]
@[simp] theorem memRead_irqRequest : (memRead a s).2.irqRequest = s.irqRequest := by rw [memRead_snd]
@[simp] theorem memRead_ram_field : (memRead a s).2.ram = s.ram := by rw [memRead_snd]
@[simp] theorem memRead_chr : (memRead a s).2.chr = s.chr := by rw [memRead_snd]
@[simp] theorem memRead_cart : (memRead a s).2.cart = s.cart := by rw [memRead_snd]
@[simp] theorem memRead_buttons : (memRead a s).2.buttons = s.buttons := by rw [memRead_snd]
@[simp] theorem memRead_buttons2 : (memRead a s).2.buttons2 = s.buttons2 := by rw [memRead_snd]
@[simp] theorem memRead_params : (memRead a s).2.params = s.params := by rw [memRead_snd]
@[simp] theorem memRead_strobe : (memRead a s).2.latch.strobe = s.latch.strobe := by rw [memRead_snd]
@[simp] theorem memRead_oam : (memRead a s).2.ppu.oam = s.ppu.oam := by rw [memRead_snd]
@[simp] theorem memRead_vram : (memRead a s).2.ppu.vram = s.ppu.vram := by rw [memRead_snd]
@[simp] theorem memRead_pal : (memRead a s).2.ppu.pal = s.ppu.pal := by rw [memRead_snd]
@[simp] theorem memRead_fb : (memRead a s).2.ppu.fb = s.ppu.fb := by rw [memRead_snd]
@[simp] theorem memRead_scanline : (memRead a s).2.ppu.scanline = s.ppu.scanline := by rw [memRead_snd]
@[simp] theorem memRead_dot : (memRead a s).2.ppu.dot = s.ppu.dot := by rw [memRead_snd]
@[simp] theorem memRead_frameCount : (memRead a s).2.ppu.frameCount = s.ppu.frameCount := by rw [memRead_snd]
@[simp] theorem memRead_ctrl : (memRead a s).2.ppu.ctrl = s.ppu.ctrl := by rw [memRead_snd]
@[simp] theorem memRead_mask : (memRead a s).2.ppu.mask = s.ppu.mask := by rw [memRead_snd]
@[simp] theorem memRead_oamAddr : (memRead a s).2.ppu.oamAddr = s.ppu.oamAddr := by rw [memRead_snd]
@[simp] theorem memRead_sprites : (memRead a s).2.ppu.sprites = s.ppu.sprites := by rw [memRead_snd]

@[simp] theorem readReg_memRead (r : Reg) : readReg r (memRead a s).2 = readReg r s := by cases r <;> simp

/-- Two bytes of the program window (R87): the vectors. -/
theorem memRead16_prg (h1 : 0x8000 ≤ a.toNat) (h2 : 0x8000 ≤ (a + 1#16).toNat) : memRead16 a s =
    (wordOf (s.cart.prg.read (prgIndex s.cart.prgSize a)) (s.cart.prg.read (prgIndex s.cart.prgSize (a + 1#16))), s) := by
  simp only [memRead16, memRead_prg a _ h1, memRead_prg (a + 1#16) _ h2]

/-! Writes. -/

/-- A write to work memory (R81). -/
theorem memWrite_ram (h : a.toNat ≤ 0x1FFF) :
    memWrite a v s = { s with ram := s.ram.write (a.toNat % Config.ramSize) v } := by
  rw [memWrite, if_pos h]

theorem memWrite_ppu (h1 : 0x2000 ≤ a.toNat) (h2 : a.toNat ≤ 0x3FFF) : memWrite a v s = ppuRegWrite (a.toNat % 8) v s := by
  rw [memWrite, if_neg (by omega), if_pos h2]

/-- A write to the cartridge window changes nothing (R473). -/
theorem memWrite_cart (h : 0x4020 ≤ a.toNat) : memWrite a v s = s := by
  have h1 : a ≠ 0x4014#16 := by rintro rfl; simp at h
  have h2 : a ≠ 0x4016#16 := by rintro rfl; simp at h
  rw [memWrite, if_neg (by omega), if_neg (by omega), if_neg h1, if_neg h2, if_neg (by omega), writePrg]

/-- What a picture register's write can change. -/
theorem ppuRegWrite_snd (r : Nat) : ppuRegWrite r v s = { s with
    ppu := { s.ppu with
      ctrl := (ppuRegWrite r v s).ppu.ctrl, mask := (ppuRegWrite r v s).ppu.mask, oamAddr := (ppuRegWrite r v s).ppu.oamAddr,
      oam := (ppuRegWrite r v s).ppu.oam, t := (ppuRegWrite r v s).ppu.t, v := (ppuRegWrite r v s).ppu.v,
      fineX := (ppuRegWrite r v s).ppu.fineX, w := (ppuRegWrite r v s).ppu.w, vram := (ppuRegWrite r v s).ppu.vram,
      pal := (ppuRegWrite r v s).ppu.pal }
    nmiRequest := (ppuRegWrite r v s).nmiRequest, chr := (ppuRegWrite r v s).chr } := by
  unfold ppuRegWrite
  split
  · rfl
  · rfl
  · rfl
  · rfl
  · simp only [scrollWrite]; split <;> rfl
  · simp only [addrWrite]; split <;> rfl
  · simp only [dataWrite, ppuWrite]
    split
    · split <;> rfl
    · split <;> rfl
  · rfl

theorem latchStrobe_snd (b : Bool) : latchStrobe b s = { s with latch := (latchStrobe b s).latch } := by
  simp only [latchStrobe]; split
  · split <;> rfl
  · rfl

/-- What the DMA loop can change: what its reads can change, and OAM with its address. -/
theorem dmaCopy_snd (page : Byte) (n : Nat) : ∀ (i : Nat) (s : State), dmaCopy page n i s = { s with
    ppu := { s.ppu with
      vblank := (dmaCopy page n i s).ppu.vblank, w := (dmaCopy page n i s).ppu.w, buffer := (dmaCopy page n i s).ppu.buffer,
      v := (dmaCopy page n i s).ppu.v, oam := (dmaCopy page n i s).ppu.oam, oamAddr := (dmaCopy page n i s).ppu.oamAddr }
    latch := { s.latch with
      shift := (dmaCopy page n i s).latch.shift, idx := (dmaCopy page n i s).latch.idx,
      shift2 := (dmaCopy page n i s).latch.shift2, idx2 := (dmaCopy page n i s).latch.idx2 } } := by
  induction n with
  | zero => intro i s; rfl
  | succ n ih =>
    intro i s
    simp only [dmaCopy]
    rw [ih]
    simp only [oamDataWrite]
    rw [memRead_snd]

/-- Everything a bus write can change (R323): work memory, the Picture Generator's registers and memories, pattern RAM, the latch, the
pending stall and the interrupt request. -/
theorem memWrite_snd : memWrite a v s = { s with
    ram := (memWrite a v s).ram
    ppu := { s.ppu with
      ctrl := (memWrite a v s).ppu.ctrl, mask := (memWrite a v s).ppu.mask, oamAddr := (memWrite a v s).ppu.oamAddr,
      oam := (memWrite a v s).ppu.oam, t := (memWrite a v s).ppu.t, v := (memWrite a v s).ppu.v,
      fineX := (memWrite a v s).ppu.fineX, w := (memWrite a v s).ppu.w, vram := (memWrite a v s).ppu.vram,
      pal := (memWrite a v s).ppu.pal, vblank := (memWrite a v s).ppu.vblank, buffer := (memWrite a v s).ppu.buffer }
    latch := (memWrite a v s).latch, nmiRequest := (memWrite a v s).nmiRequest, chr := (memWrite a v s).chr
    dmaStall := (memWrite a v s).dmaStall } := by
  unfold memWrite
  split
  · rfl
  · split
    · rw [ppuRegWrite_snd]
    · split
      · simp only [oamDma]; rw [dmaCopy_snd]
      · split
        · rw [latchStrobe_snd]
        · split
          · rfl
          · rfl

@[simp] theorem memWrite_a : (memWrite a v s).a = s.a := by rw [memWrite_snd]
@[simp] theorem memWrite_x : (memWrite a v s).x = s.x := by rw [memWrite_snd]
@[simp] theorem memWrite_y : (memWrite a v s).y = s.y := by rw [memWrite_snd]
@[simp] theorem memWrite_sp : (memWrite a v s).sp = s.sp := by rw [memWrite_snd]
@[simp] theorem memWrite_p : (memWrite a v s).p = s.p := by rw [memWrite_snd]
@[simp] theorem memWrite_pc : (memWrite a v s).pc = s.pc := by rw [memWrite_snd]
@[simp] theorem memWrite_cyc : (memWrite a v s).cyc = s.cyc := by rw [memWrite_snd]
@[simp] theorem memWrite_rem : (memWrite a v s).rem = s.rem := by rw [memWrite_snd]
@[simp] theorem memWrite_fault : (memWrite a v s).fault = s.fault := by rw [memWrite_snd]
@[simp] theorem memWrite_faultOpcode : (memWrite a v s).faultOpcode = s.faultOpcode := by rw [memWrite_snd]
@[simp] theorem memWrite_faultPc : (memWrite a v s).faultPc = s.faultPc := by rw [memWrite_snd]
@[simp] theorem memWrite_irqRequest : (memWrite a v s).irqRequest = s.irqRequest := by rw [memWrite_snd]
@[simp] theorem memWrite_cart_field : (memWrite a v s).cart = s.cart := by rw [memWrite_snd]
@[simp] theorem memWrite_buttons : (memWrite a v s).buttons = s.buttons := by rw [memWrite_snd]
@[simp] theorem memWrite_buttons2 : (memWrite a v s).buttons2 = s.buttons2 := by rw [memWrite_snd]
@[simp] theorem memWrite_params : (memWrite a v s).params = s.params := by rw [memWrite_snd]
@[simp] theorem memWrite_fb : (memWrite a v s).ppu.fb = s.ppu.fb := by rw [memWrite_snd]
@[simp] theorem memWrite_scanline : (memWrite a v s).ppu.scanline = s.ppu.scanline := by rw [memWrite_snd]
@[simp] theorem memWrite_dot : (memWrite a v s).ppu.dot = s.ppu.dot := by rw [memWrite_snd]
@[simp] theorem memWrite_frameCount : (memWrite a v s).ppu.frameCount = s.ppu.frameCount := by rw [memWrite_snd]
@[simp] theorem memWrite_sprites : (memWrite a v s).ppu.sprites = s.ppu.sprites := by rw [memWrite_snd]
@[simp] theorem memWrite_spriteZeroHit : (memWrite a v s).ppu.spriteZeroHit = s.ppu.spriteZeroHit := by rw [memWrite_snd]
@[simp] theorem memWrite_spriteOverflow : (memWrite a v s).ppu.spriteOverflow = s.ppu.spriteOverflow := by rw [memWrite_snd]

/-- A write above work memory leaves work memory. -/
theorem memWrite_ram_other (h : 0x2000 ≤ a.toNat) : (memWrite a v s).ram = s.ram := by
  unfold memWrite
  rw [if_neg (by omega)]
  split
  · rw [ppuRegWrite_snd]
  · split
    · simp only [oamDma]; rw [dmaCopy_snd]
    · split
      · rw [latchStrobe_snd]
      · split <;> rfl

/-! The stack. -/

theorem stackAddr_toNat : (stackAddr s).toNat = stackCell s.sp := by
  simp only [stackAddr, wordOf_toNat, stackCell]; rfl

theorem stackCell_lt (sp : Byte) : stackCell sp < 512 := by
  have := sp.isLt
  simp only [stackCell]; omega

theorem stackCell_mod (sp : Byte) : stackCell sp % Config.ramSize = stackCell sp :=
  Nat.mod_eq_of_lt (Nat.lt_trans (stackCell_lt sp) (by decide))

/-- Two stack pointers that name the same cell are equal. -/
theorem stackCell_inj {p q : Byte} (h : stackCell p = stackCell q) : p = q :=
  BitVec.eq_of_toNat_eq (by simp only [stackCell] at h; omega)

/-- A push writes the cell S names, then decrements S (R180). -/
theorem push_eq : push v s = { s with ram := s.ram.write (stackCell s.sp) v, sp := s.sp - 1#8 } := by
  have := stackCell_lt s.sp
  simp only [push, writeReg]
  rw [memWrite_ram _ _ _ (by rw [stackAddr_toNat]; omega), stackAddr_toNat, stackCell_mod]

/-- A pull increments S, then reads the cell it names (R181). -/
theorem pull_eq : pull s = (s.ram.read (stackCell (s.sp + 1#8)), { s with sp := s.sp + 1#8 }) := by
  have := stackCell_lt (s.sp + 1#8)
  simp only [pull, writeReg]
  rw [memRead_ram _ _ (by rw [stackAddr_toNat]; simp only; omega), stackAddr_toNat, stackCell_mod]

/-- Two bytes pushed: the high byte first, so the low byte lies lower (R181, R71). -/
theorem push16_eq (w : Word) : push16 w s = { s with
    ram := (s.ram.write (stackCell s.sp) (hiByte w)).write (stackCell (s.sp - 1#8)) (loByte w), sp := s.sp - 2#8 } := by
  simp only [push16, push_eq]
  congr 1
  rw [BitVec.sub_sub]; rfl

theorem pull16_eq : pull16 s = (wordOf (s.ram.read (stackCell (s.sp + 1#8))) (s.ram.read (stackCell (s.sp + 2#8))),
    { s with sp := s.sp + 2#8 }) := by
  simp only [pull16, pull_eq]
  rw [BitVec.add_assoc]; rfl

/-- The program counter a vector holds. -/
def vectorTarget (vector : Word) (s : State) : Word :=
  wordOf (s.cart.prg.read (prgIndex s.cart.prgSize vector)) (s.cart.prg.read (prgIndex s.cart.prgSize (vector + 1#16)))

/-- Taking an exception through a vector of the program window (R294, R243): three bytes on the stack, I set, PC from the vector. -/
theorem takeException_eq (vector : Word) (brk : Bool) (h1 : 0x8000 ≤ vector.toNat) (h2 : 0x8000 ≤ (vector + 1#16).toNat) :
    takeException vector brk s = { s with
      ram := ((s.ram.write (stackCell s.sp) (hiByte s.pc)).write (stackCell (s.sp - 1#8)) (loByte s.pc)).write
        (stackCell (s.sp - 2#8)) (pushedStatus brk s.p)
      sp := s.sp - 3#8, p := setFlag .i true s.p, pc := vectorTarget vector s } := by
  simp only [takeException, push16_eq, push_eq, setP, memRead16_prg _ _ h1 h2, setPc, vectorTarget]
  congr 1
  rw [BitVec.sub_sub]; rfl

/-- Returning from an exception (R244). -/
theorem returnFromException_eq : returnFromException s = { s with
    sp := s.sp + 3#8, p := pulledStatus (s.ram.read (stackCell (s.sp + 1#8)))
    pc := wordOf (s.ram.read (stackCell (s.sp + 2#8))) (s.ram.read (stackCell (s.sp + 3#8))) } := by
  simp only [returnFromException, pull_eq, setP, pull16_eq, setPc]
  rw [BitVec.add_assoc, BitVec.add_assoc]; rfl

/-! Fetching. -/

/-- One fetched byte: the byte at PC, and PC one further (R121). -/
theorem fetch8_eq : fetch8 s = ((memRead s.pc s).1, { (memRead s.pc s).2 with pc := s.pc + 1#16 }) := by
  simp only [fetch8, setPc, memRead_pc]

end Sys2Proof.Machine
end

