-- ==== Sys2Proof/Laws/Decode.lean ====
section
/-! SUPPORT. How fetching an instruction byte by byte agrees with decoding a list of bytes. -/

namespace Sys2Proof.Machine

/-- An opcode byte asks for one, two or three bytes. -/
theorem instrLength_cases (op : Byte) : instrLength op = 1 ∨ instrLength op = 2 ∨ instrLength op = 3 := by
  unfold instrLength
  split <;> simp

/-- The decoder on three bytes: it reads what the opcode's length asks for and leaves the rest. -/
theorem decode_three (op b1 b2 : Byte) : decode [op, b1, b2] = .ok
    (if instrLength op = 3 then (assemble op b1 b2, [])
     else if instrLength op = 2 then (assemble op b1 0#8, [b2]) else (assemble op 0#8 0#8, [b1, b2])) := by
  rcases instrLength_cases op with h | h | h <;> simp [decode, h]

/-- The states before, and after, one, two and three fetched bytes. -/
def fetched (n : Nat) (s : State) : State := Nat.iterate (fun u => (fetch8 u).2) n s

/-- Fetching an instruction runs the decoder on the bytes it fetches, and leaves the state after as many fetches as the length asks
for (R120, R121). -/
theorem fetchInstruction_eq (s : State) : fetchInstruction s =
    (if instrLength (fetch8 s).1 = 3 then assemble (fetch8 s).1 (fetch8 (fetched 1 s)).1 (fetch8 (fetched 2 s)).1
     else if instrLength (fetch8 s).1 = 2 then assemble (fetch8 s).1 (fetch8 (fetched 1 s)).1 0#8
     else assemble (fetch8 s).1 0#8 0#8, fetched (instrLength (fetch8 s).1) s) := by
  unfold fetchInstruction
  rcases instrLength_cases (fetch8 s).1 with h | h | h <;> simp [h, fetched]

/-- Where the fetched addresses have no read side effect, fetching moves PC and nothing else. -/
theorem fetched_pure (n : Nat) (s : State) (h : ∀ k < n, readHasSideEffect (s.pc + BitVec.ofNat 16 k) s = false) :
    fetched n s = { s with pc := s.pc + BitVec.ofNat 16 n } := by
  induction n with
  | zero => simp [fetched]
  | succ n ih =>
    have hn := ih (fun k hk => h k (by omega))
    unfold fetched at hn ⊢
    rw [Function.iterate_succ_apply', hn, fetch8_eq]
    have hp : (memRead (s.pc + BitVec.ofNat 16 n) { s with pc := s.pc + BitVec.ofNat 16 n }).2 =
        { s with pc := s.pc + BitVec.ofNat 16 n } := memRead_pure _ _ (h n (by omega))
    simp only
    rw [hp]
    have : s.pc + BitVec.ofNat 16 n + 1#16 = s.pc + BitVec.ofNat 16 (n + 1) := by
      rw [BitVec.add_assoc, BitVec.ofNat_add]
    simp only [this]

end Sys2Proof.Machine
end

