-- ==== Sys2Proof/Laws/Dots.lean ====
section
/-! SUPPORT. What each part of a dot can change (63_picture_rendering.md R411), and what a dot keeps of the Picture Generator's
invariant. -/

namespace Sys2Proof.Machine

variable (chr : Memory) (mirroring : Mirroring) (g : Picture)

/-- Part (1): the three flags, the frame count and the line buffer. -/
theorem flagEvents_frame : ∃ vb z o fc sp, flagEvents g =
    { g with vblank := vb, spriteZeroHit := z, spriteOverflow := o, frameCount := fc, sprites := sp } := by
  unfold flagEvents
  split
  · exact ⟨_, _, _, _, _, rfl⟩
  · split <;> exact ⟨_, _, _, _, _, rfl⟩

/-- Part (2): the four shifters. -/
theorem shifters_frame : ∃ bl bh al ah, shifters g = { g with bgLo := bl, bgHi := bh, atLo := al, atHi := ah } := by
  unfold shifters
  split
  · simp only
    split
    · split <;> exact ⟨_, _, _, _, rfl⟩
    · split <;> exact ⟨_, _, _, _, rfl⟩
  · exact ⟨_, _, _, _, rfl⟩

/-- Part (3): one FrameBuffer cell and the sprite-zero flag. -/
theorem pixelPart_frame : ∃ z fb, pixelPart g = { g with spriteZeroHit := z, fb := fb } := by
  unfold pixelPart
  split <;> exact ⟨_, _, rfl⟩

/-- Part (4) at one phase: one of the four fetch latches, or `v`. -/
theorem bgFetchPhase_frame (p : Nat) : ∃ nt at' lo hi v, bgFetchPhase chr mirroring p g =
    { g with ntLatch := nt, atLatch := at', patLoLatch := lo, patHiLatch := hi, v := v } := by
  unfold bgFetchPhase
  split <;> exact ⟨_, _, _, _, _, rfl⟩

/-- `h` is `g` but for the four fetch latches and `v`. -/
def FetchOnly (g h : Picture) : Prop := ∃ nt at' lo hi v, h =
    { g with ntLatch := nt, atLatch := at', patLoLatch := lo, patHiLatch := hi, v := v }

theorem FetchOnly.setV {g h : Picture} (c : Prop) [Decidable c] (v : BitVec 15) (e : FetchOnly g h) :
    FetchOnly g (if c then { h with v := v } else h) := by
  obtain ⟨nt, at', lo, hi, v', rfl⟩ := e
  split <;> exact ⟨_, _, _, _, _, rfl⟩

/-- Part (4): the four fetch latches and `v`. -/
theorem fetches_frame : FetchOnly g (fetches chr mirroring g) := by
  have h : FetchOnly g (if fetchDot g.dot = true then bgFetchPhase chr mirroring ((g.dot - 1) % 8) g else g) := by
    split
    · exact bgFetchPhase_frame chr mirroring g _
    · exact ⟨_, _, _, _, _, rfl⟩
  unfold fetches
  split
  · exact ((h.setV _ _).setV _ _).setV _ _
  · exact ⟨_, _, _, _, _, rfl⟩

/-- Part (5): the line buffer and the overflow flag. -/
theorem spritePart_frame : ∃ sp o, spritePart chr g = { g with sprites := sp, spriteOverflow := o } := by
  unfold spritePart
  split
  · unfold spriteEval; split <;> exact ⟨_, _, rfl⟩
  · exact ⟨_, _, rfl⟩

/-- Part (6): the position. -/
theorem advancePosition_frame : ∃ d l, advancePosition g = { g with dot := d, scanline := l } := by
  unfold advancePosition
  split <;> exact ⟨_, _, rfl⟩

/-- The Picture Generator before part (6). -/
def dotWork : Picture := spritePart chr (fetches chr mirroring (pixelPart (shifters (flagEvents g))))

theorem ppuDot_eq : ppuDot chr mirroring g = advancePosition (dotWork chr mirroring g) := rfl

/-- Everything a dot can change before it advances: no register a program writes, no memory but FB. -/
theorem dotWork_frame : ∃ z o sp nt at' lo hi v, dotWork chr mirroring g = { g with
    vblank := (flagEvents g).vblank, frameCount := (flagEvents g).frameCount, spriteZeroHit := z, spriteOverflow := o
    sprites := sp
    bgLo := (shifters (flagEvents g)).bgLo, bgHi := (shifters (flagEvents g)).bgHi
    atLo := (shifters (flagEvents g)).atLo, atHi := (shifters (flagEvents g)).atHi
    fb := (pixelPart (shifters (flagEvents g))).fb, ntLatch := nt, atLatch := at', patLoLatch := lo, patHiLatch := hi
    v := v } := by
  unfold dotWork
  obtain ⟨vb, z1, o1, fc, sp1, e1⟩ := flagEvents_frame g
  rw [e1]
  obtain ⟨bl, bh, al, ah, e2⟩ := shifters_frame
    { g with vblank := vb, spriteZeroHit := z1, spriteOverflow := o1, frameCount := fc, sprites := sp1 }
  rw [e2]
  obtain ⟨z, fb, e3⟩ := pixelPart_frame { g with
    vblank := vb, spriteZeroHit := z1, spriteOverflow := o1, frameCount := fc, sprites := sp1, bgLo := bl, bgHi := bh,
    atLo := al, atHi := ah }
  rw [e3]
  obtain ⟨nt, at', lo, hi, v, e4⟩ := fetches_frame chr mirroring { g with
    vblank := vb, spriteZeroHit := z, spriteOverflow := o1, frameCount := fc, sprites := sp1, bgLo := bl, bgHi := bh,
    atLo := al, atHi := ah, fb := fb }
  rw [e4]
  obtain ⟨sp, o, e5⟩ := spritePart_frame chr { g with
    vblank := vb, spriteZeroHit := z, spriteOverflow := o1, frameCount := fc, sprites := sp1, bgLo := bl, bgHi := bh,
    atLo := al, atHi := ah, fb := fb, ntLatch := nt, atLatch := at', patLoLatch := lo, patHiLatch := hi, v := v }
  rw [e5]
  exact ⟨z, o, sp, nt, at', lo, hi, v, rfl⟩

/-- The same of a whole dot. -/
theorem ppuDot_frame : ∃ l d z o sp nt at' lo hi v, ppuDot chr mirroring g = { g with
    scanline := l, dot := d
    vblank := (flagEvents g).vblank, frameCount := (flagEvents g).frameCount, spriteZeroHit := z, spriteOverflow := o
    sprites := sp
    bgLo := (shifters (flagEvents g)).bgLo, bgHi := (shifters (flagEvents g)).bgHi
    atLo := (shifters (flagEvents g)).atLo, atHi := (shifters (flagEvents g)).atHi
    fb := (pixelPart (shifters (flagEvents g))).fb, ntLatch := nt, atLatch := at', patLoLatch := lo, patHiLatch := hi
    v := v } := by
  obtain ⟨z, o, sp, nt, at', lo, hi, v, e⟩ := dotWork_frame chr mirroring g
  obtain ⟨d, l, e6⟩ := advancePosition_frame (dotWork chr mirroring g)
  rw [ppuDot_eq, e6, e]
  exact ⟨l, d, z, o, sp, nt, at', lo, hi, v, rfl⟩

@[simp] theorem ppuDot_ctrl : (ppuDot chr mirroring g).ctrl = g.ctrl := by
  obtain ⟨_, _, _, _, _, _, _, _, _, _, e⟩ := ppuDot_frame chr mirroring g; rw [e]
@[simp] theorem ppuDot_mask : (ppuDot chr mirroring g).mask = g.mask := by
  obtain ⟨_, _, _, _, _, _, _, _, _, _, e⟩ := ppuDot_frame chr mirroring g; rw [e]
@[simp] theorem ppuDot_oamAddr : (ppuDot chr mirroring g).oamAddr = g.oamAddr := by
  obtain ⟨_, _, _, _, _, _, _, _, _, _, e⟩ := ppuDot_frame chr mirroring g; rw [e]
@[simp] theorem ppuDot_t : (ppuDot chr mirroring g).t = g.t := by
  obtain ⟨_, _, _, _, _, _, _, _, _, _, e⟩ := ppuDot_frame chr mirroring g; rw [e]
@[simp] theorem ppuDot_fineX : (ppuDot chr mirroring g).fineX = g.fineX := by
  obtain ⟨_, _, _, _, _, _, _, _, _, _, e⟩ := ppuDot_frame chr mirroring g; rw [e]
@[simp] theorem ppuDot_w : (ppuDot chr mirroring g).w = g.w := by
  obtain ⟨_, _, _, _, _, _, _, _, _, _, e⟩ := ppuDot_frame chr mirroring g; rw [e]
@[simp] theorem ppuDot_buffer : (ppuDot chr mirroring g).buffer = g.buffer := by
  obtain ⟨_, _, _, _, _, _, _, _, _, _, e⟩ := ppuDot_frame chr mirroring g; rw [e]
@[simp] theorem ppuDot_oam : (ppuDot chr mirroring g).oam = g.oam := by
  obtain ⟨_, _, _, _, _, _, _, _, _, _, e⟩ := ppuDot_frame chr mirroring g; rw [e]
@[simp] theorem ppuDot_pal : (ppuDot chr mirroring g).pal = g.pal := by
  obtain ⟨_, _, _, _, _, _, _, _, _, _, e⟩ := ppuDot_frame chr mirroring g; rw [e]
@[simp] theorem ppuDot_vram : (ppuDot chr mirroring g).vram = g.vram := by
  obtain ⟨_, _, _, _, _, _, _, _, _, _, e⟩ := ppuDot_frame chr mirroring g; rw [e]

/-- The new position (R412). -/
theorem ppuDot_dot : (ppuDot chr mirroring g).dot = if g.dot + 1 = 341 then 0 else g.dot + 1 := by
  obtain ⟨_, _, _, _, _, _, _, _, e⟩ := dotWork_frame chr mirroring g
  rw [ppuDot_eq, e]
  unfold advancePosition
  simp only
  split <;> rfl

theorem ppuDot_scanline : (ppuDot chr mirroring g).scanline =
    if g.dot + 1 = 341 then (if g.scanline + 1 = 262 then 0 else g.scanline + 1) else g.scanline := by
  obtain ⟨_, _, _, _, _, _, _, _, e⟩ := dotWork_frame chr mirroring g
  rw [ppuDot_eq, e]
  unfold advancePosition
  simp only
  split <;> rfl

theorem ppuDot_frameCount : (ppuDot chr mirroring g).frameCount =
    if g.scanline = 241 ∧ g.dot = 1 then g.frameCount + 1 else g.frameCount := by
  obtain ⟨_, _, _, _, _, _, _, _, _, _, e⟩ := ppuDot_frame chr mirroring g
  rw [e]
  simp only [flagEvents]
  split
  · rfl
  · split <;> rfl

theorem ppuDot_vblank : (ppuDot chr mirroring g).vblank =
    if g.scanline = 241 ∧ g.dot = 1 then true else if g.scanline = 261 ∧ g.dot = 1 then false else g.vblank := by
  obtain ⟨_, _, _, _, _, _, _, _, _, _, e⟩ := ppuDot_frame chr mirroring g
  rw [e]
  simp only [flagEvents]
  split
  · rfl
  · split <;> rfl

/-- One FrameBuffer cell, or none (R411 part (3), R451). -/
theorem ppuDot_fb : (ppuDot chr mirroring g).fb = (pixelPart (shifters (flagEvents g))).fb := by
  obtain ⟨_, _, _, _, _, _, _, _, _, _, e⟩ := ppuDot_frame chr mirroring g; rw [e]

/-- Part (3) alone sets STATUS.S, on what parts (1) and (2) left (R446). -/
theorem ppuDot_spriteZeroHit : (ppuDot chr mirroring g).spriteZeroHit = (pixelPart (shifters (flagEvents g))).spriteZeroHit := by
  obtain ⟨_, _, e6⟩ := advancePosition_frame (dotWork chr mirroring g)
  rw [ppuDot_eq, e6]
  show (dotWork chr mirroring g).spriteZeroHit = _
  obtain ⟨_, _, e5⟩ := spritePart_frame chr (fetches chr mirroring (pixelPart (shifters (flagEvents g))))
  obtain ⟨_, _, _, _, _, e4⟩ := fetches_frame chr mirroring (pixelPart (shifters (flagEvents g)))
  rw [dotWork, e5, e4]

/-- Part (2) alone changes the shifters. -/
theorem ppuDot_shifters : (ppuDot chr mirroring g).bgLo = (shifters (flagEvents g)).bgLo ∧
    (ppuDot chr mirroring g).bgHi = (shifters (flagEvents g)).bgHi ∧ (ppuDot chr mirroring g).atLo = (shifters (flagEvents g)).atLo ∧
    (ppuDot chr mirroring g).atHi = (shifters (flagEvents g)).atHi := by
  obtain ⟨_, _, _, _, _, _, _, _, _, _, e⟩ := ppuDot_frame chr mirroring g
  rw [e]; exact ⟨rfl, rfl, rfl, rfl⟩

/-- What part (5) reads: the position, CTRL, MASK, OAM, and the line buffer and flag it may replace. -/
theorem spritePart_congr {g k : Picture} (hl : k.scanline = g.scanline) (hd : k.dot = g.dot) (hc : k.ctrl = g.ctrl) (hm : k.mask = g.mask)
    (ho : k.oam = g.oam) (hs : k.sprites = g.sprites) (hv : k.spriteOverflow = g.spriteOverflow) :
    (spritePart chr k).sprites = (spritePart chr g).sprites ∧ (spritePart chr k).spriteOverflow = (spritePart chr g).spriteOverflow := by
  cases g; cases k
  simp only at hl hd hc hm ho hs hv
  subst hl hd hc hm ho hs hv
  simp only [spritePart, spriteEval, apply_ite Picture.sprites, apply_ite Picture.spriteOverflow]
  exact ⟨rfl, rfl⟩

/-- Part (5) sees what part (1) left of everything it reads. -/
theorem ppuDot_sprites : (ppuDot chr mirroring g).sprites = (spritePart chr (flagEvents g)).sprites ∧
    (ppuDot chr mirroring g).spriteOverflow = (spritePart chr (flagEvents g)).spriteOverflow := by
  obtain ⟨_, _, e6⟩ := advancePosition_frame (dotWork chr mirroring g)
  obtain ⟨_, _, _, _, e2⟩ := shifters_frame (flagEvents g)
  obtain ⟨_, _, e3⟩ := pixelPart_frame (shifters (flagEvents g))
  obtain ⟨_, _, _, _, _, e4⟩ := fetches_frame chr mirroring (pixelPart (shifters (flagEvents g)))
  rw [ppuDot_eq, e6]
  refine spritePart_congr chr ?_ ?_ ?_ ?_ ?_ ?_ ?_ <;> rw [e4, e3, e2]

/-- Part (4) alone changes the fetch latches. -/
theorem ppuDot_latches :
    (ppuDot chr mirroring g).ntLatch = (fetches chr mirroring (pixelPart (shifters (flagEvents g)))).ntLatch ∧
    (ppuDot chr mirroring g).atLatch = (fetches chr mirroring (pixelPart (shifters (flagEvents g)))).atLatch ∧
    (ppuDot chr mirroring g).patLoLatch = (fetches chr mirroring (pixelPart (shifters (flagEvents g)))).patLoLatch ∧
    (ppuDot chr mirroring g).patHiLatch = (fetches chr mirroring (pixelPart (shifters (flagEvents g)))).patHiLatch := by
  obtain ⟨_, _, e6⟩ := advancePosition_frame (dotWork chr mirroring g)
  rw [ppuDot_eq, e6]
  obtain ⟨_, _, e5⟩ := spritePart_frame chr (fetches chr mirroring (pixelPart (shifters (flagEvents g))))
  rw [dotWork, e5]; exact ⟨rfl, rfl, rfl, rfl⟩

/-- A field other than `v` after part (4): what the fetch phase of the dot leaves in it, on a rendered line with rendering on. -/
theorem fetches_field {α : Type} (f : Picture → α) (hv : ∀ (p : Picture) v', f { p with v := v' } = f p) (k : Picture) :
    f (fetches chr mirroring k) = if (renderingEnabled k && renderLine k) = true ∧ fetchDot k.dot = true
      then f (bgFetchPhase chr mirroring ((k.dot - 1) % 8) k) else f k := by
  have hs : ∀ (c : Prop) [Decidable c] (p : Picture) v', f (if c then { p with v := v' } else p) = f p := by
    intro c _ p v'; split
    · exact hv p v'
    · rfl
  unfold fetches
  by_cases h : (renderingEnabled k && renderLine k) = true
  · rw [if_pos h]
    simp only
    rw [hs, hs, hs]
    by_cases h2 : fetchDot k.dot = true
    · rw [if_pos h2, if_pos ⟨h, h2⟩]
    · rw [if_neg h2, if_neg (fun h => h2 h.2)]
  · rw [if_neg h, if_neg (fun h' => h h'.1)]

theorem pixelPart_fb_cases : (pixelPart g).fb = g.fb ∨
    ((g.scanline ≤ 239 ∧ 1 ≤ g.dot ∧ g.dot ≤ 256) ∧
      ∃ idx, (pixelPart g).fb = fbWrite g.fb g.scanline (g.dot - 1) (pixelColour g idx)) := by
  unfold pixelPart
  split
  · next h => exact .inr ⟨h, _, rfl⟩
  · exact .inl rfl

/-- What part (3) finds as the dot began: FB, the palette and the position. -/
theorem shiftedFields : (shifters (flagEvents g)).fb = g.fb ∧ (shifters (flagEvents g)).pal = g.pal ∧
    (shifters (flagEvents g)).dot = g.dot ∧ (shifters (flagEvents g)).scanline = g.scanline := by
  obtain ⟨_, _, _, _, e2⟩ := shifters_frame (flagEvents g)
  obtain ⟨_, _, _, _, _, e1⟩ := flagEvents_frame g
  rw [e2, e1]
  exact ⟨rfl, rfl, rfl, rfl⟩

theorem pixelColour_lt (idx : Nat) (h : g.pal.sixBit = true) : (pixelColour g idx).toNat < 64 := by
  have h6 := Memory.sixBit_read h idx
  simp only [pixelColour]
  split
  · rw [BitVec.toNat_and]
    exact Nat.lt_of_le_of_lt Nat.and_le_left h6
  · exact h6

theorem ppuDot_sprites_le (h : g.sprites.length ≤ 8) : (ppuDot chr mirroring g).sprites.length ≤ 8 := by
  have hf : (flagEvents g).sprites.length ≤ 8 := by
    unfold flagEvents
    split
    · exact h
    · split
      · exact Nat.zero_le _
      · exact h
  have h4 : ∀ g', (fetches chr mirroring (pixelPart (shifters g'))).sprites = g'.sprites := by
    intro g'
    obtain ⟨_, _, _, _, _, e⟩ := fetches_frame chr mirroring (pixelPart (shifters g'))
    obtain ⟨_, _, e3⟩ := pixelPart_frame (shifters g')
    obtain ⟨_, _, _, _, e2⟩ := shifters_frame g'
    rw [e, e3, e2]
  obtain ⟨_, _, e6⟩ := advancePosition_frame (dotWork chr mirroring g)
  rw [ppuDot_eq, e6]
  show (dotWork chr mirroring g).sprites.length ≤ 8
  unfold dotWork spritePart
  split
  · unfold spriteEval
    split
    · simp only [List.length_map, List.length_take]; omega
    · exact Nat.zero_le _
  · rw [h4]; exact hf

/-- What Inv says of the Picture Generator after `k` dots in all. -/
structure PicInv (k : Nat) (g : Picture) : Prop where
  position : g.dot < 341 ∧ g.scanline * 341 + g.dot = k % dotsPerFrame
  frames : g.frameCount = (k + 7159) / dotsPerFrame
  lineBuffer : g.sprites.length ≤ 8
  oam : g.oam.ok Config.oamSize = true
  vram : g.vram.ok Config.vramSize = true
  pal : paletteOk g.pal = true
  fbRows : g.fb.length = Config.fbHeight
  fbCells : g.fb.all rowOk = true

theorem paletteOk_sixBit {m : Memory} (h : paletteOk m = true) : m.sixBit = true := by
  simp only [paletteOk, Bool.and_eq_true] at h
  exact h.1.2

/-- A dot keeps the Picture Generator's invariant. -/
theorem PicInv.dot {k : Nat} {g : Picture} (h : PicInv k g) : PicInv (k + 1) (ppuDot chr mirroring g) := by
  have hp := h.position
  simp only [dotsPerFrame] at hp
  refine ⟨?_, ?_, ppuDot_sprites_le chr mirroring g h.lineBuffer, ?_, ?_, ?_, ?_, ?_⟩
  · rw [ppuDot_dot, ppuDot_scanline]
    simp only [dotsPerFrame]
    split
    · split <;> constructor <;> omega
    · constructor <;> omega
  · rw [ppuDot_frameCount, h.frames]
    simp only [dotsPerFrame]
    split <;> omega
  · rw [ppuDot_oam]; exact h.oam
  · rw [ppuDot_vram]; exact h.vram
  · rw [ppuDot_pal]; exact h.pal
  all_goals
    obtain ⟨f1, f2, f3, f4⟩ := shiftedFields g
    rw [ppuDot_fb]
    rcases pixelPart_fb_cases (shifters (flagEvents g)) with e' | ⟨hd, idx, e'⟩
  · rw [e', f1]; exact h.fbRows
  · rw [e', fbWrite_length, f1]; exact h.fbRows
  · rw [e', f1]; exact h.fbCells
  · rw [e']
    refine fbCells_write ?_ ?_ (pixelColour_lt _ idx ?_)
    · rw [f1]; exact h.fbCells
    · simp only [Config.fbWidth]; omega
    · rw [f2]; exact paletteOk_sixBit h.pal

end Sys2Proof.Machine
end

