-- ==== Sys2Proof/Laws/Operands.lean ====
section
/-! SUPPORT. What computing an effective address, reading an operand and reading an indirect target can do. -/

namespace Sys2Proof.Machine

variable (s : State)

/-- A zero-page pointer is read from work memory: no side effect (R133, R134). -/
theorem zeroPagePointer_eq (p : Byte) : zeroPagePointer p s = (wordOf (s.ram.read p.toNat) (s.ram.read (p + 1#8).toNat), s) := by
  have h1 := p.isLt
  have h2 := (p + 1#8).isLt
  simp only [zeroPagePointer]
  rw [memRead_ram _ _ (by rw [zext16_toNat]; omega), memRead_ram _ _ (by rw [zext16_toNat]; omega)]
  simp only [zext16_toNat]
  rw [Nat.mod_eq_of_lt (by simp only [Config.ramSize]; omega), Nat.mod_eq_of_lt (by simp only [Config.ramSize]; omega)]

/-- Computing an effective address changes nothing. -/
@[simp] theorem locate_st (m : AddrMode) : (locate m s).st = s := by
  cases m <;> simp [locate, indexed, zeroPagePointer_eq]

/-- The operand of a memory source is the byte at its effective address, and the read has that address's side effect. -/
theorem readSource_mem (m : AddrMode) : readSource (.mem m) s =
    ⟨(memRead (locate m s).ea s).1, (locate m s).crossed, (memRead (locate m s).ea s).2⟩ := by
  simp only [readSource, locate_st]

theorem readSource_imm (d8 : Byte) : readSource (.imm d8) s = ⟨d8, false, s⟩ := rfl

/-- Reading an operand does to the state what one bus read does, or nothing. -/
theorem readSource_st (src : Source) : (readSource src s).st = s ∨ ∃ a, (readSource src s).st = (memRead a s).2 := by
  cases src with
  | imm d8 => exact .inl rfl
  | mem m => exact .inr ⟨(locate m s).ea, by rw [readSource_mem]⟩

@[simp] theorem readSource_a (src : Source) : (readSource src s).st.a = s.a := by
  rcases readSource_st s src with h | ⟨a, h⟩ <;> rw [h]; simp
@[simp] theorem readSource_x (src : Source) : (readSource src s).st.x = s.x := by
  rcases readSource_st s src with h | ⟨a, h⟩ <;> rw [h]; simp
@[simp] theorem readSource_y (src : Source) : (readSource src s).st.y = s.y := by
  rcases readSource_st s src with h | ⟨a, h⟩ <;> rw [h]; simp
@[simp] theorem readSource_sp (src : Source) : (readSource src s).st.sp = s.sp := by
  rcases readSource_st s src with h | ⟨a, h⟩ <;> rw [h]; simp
@[simp] theorem readSource_p (src : Source) : (readSource src s).st.p = s.p := by
  rcases readSource_st s src with h | ⟨a, h⟩ <;> rw [h]; simp
@[simp] theorem readSource_pc (src : Source) : (readSource src s).st.pc = s.pc := by
  rcases readSource_st s src with h | ⟨a, h⟩ <;> rw [h]; simp
@[simp] theorem readReg_readSource (r : Reg) (src : Source) : readReg r (readSource src s).st = readReg r s := by
  cases r <;> simp

/-- The indirect jump's target: both bytes from the pointer's own page (R231). -/
theorem indirectTarget_ram (p : Word) (h : p.toNat ≤ 0x1FFF) : indirectTarget p s =
    (wordOf (s.ram.read (p.toNat % Config.ramSize)) (s.ram.read ((wordOf (loByte p + 1#8) (hiByte p)).toNat % Config.ramSize)), s) := by
  have h2 : (wordOf (loByte p + 1#8) (hiByte p)).toNat ≤ 0x1FFF := by
    have hl := (loByte p + 1#8).isLt
    have hw : p.toNat = (hiByte p).toNat * 256 + (loByte p).toNat := by
      rw [← wordOf_toNat, wordOf_bytes]
    rw [wordOf_toNat]
    omega
  simp only [indirectTarget]
  rw [memRead_ram _ _ h, memRead_ram _ _ h2]

end Sys2Proof.Machine
end

