-- ==== Sys2Proof/Laws/Exec.lean ====
section
/-! SUPPORT. exec read by mnemonic: the 152 arms are the 59 shapes of Form with the base cycles of their row. -/

namespace Sys2Proof.Machine

/-- The meaning of a mnemonic at an operand. -/
def execForm (f : Form) (s : State) : StepResult :=
  match f with
  | .lda src => loadReg .a src (baseCycles f) s
  | .ldx src => loadReg .x src (baseCycles f) s
  | .ldy src => loadReg .y src (baseCycles f) s
  | .sta m => storeReg .a m (baseCycles f) s
  | .stx m => storeReg .x m (baseCycles f) s
  | .sty m => storeReg .y m (baseCycles f) s
  | .tax => transferFlags .a .x (baseCycles f) s
  | .tay => transferFlags .a .y (baseCycles f) s
  | .txa => transferFlags .x .a (baseCycles f) s
  | .tya => transferFlags .y .a (baseCycles f) s
  | .tsx => transferFlags .s .x (baseCycles f) s
  | .txs => transferPlain .x .s (baseCycles f) s
  | .pha => pushByte s.a (baseCycles f) s
  | .php => pushByte (pushedStatus true s.p) (baseCycles f) s
  | .pla => pullAccumulator (baseCycles f) s
  | .plp => pullStatus (baseCycles f) s
  | .adc src => accumulate adcByte src (baseCycles f) s
  | .sbc src => accumulate sbcByte src (baseCycles f) s
  | .and src => accumulate andByte src (baseCycles f) s
  | .ora src => accumulate oraByte src (baseCycles f) s
  | .eor src => accumulate eorByte src (baseCycles f) s
  | .cmp src => compareReg .a src (baseCycles f) s
  | .cpx src => compareReg .x src (baseCycles f) s
  | .cpy src => compareReg .y src (baseCycles f) s
  | .inc m => modifyMem incByte m (baseCycles f) s
  | .dec m => modifyMem decByte m (baseCycles f) s
  | .inx => modifyReg incByte .x (baseCycles f) s
  | .iny => modifyReg incByte .y (baseCycles f) s
  | .dex => modifyReg decByte .x (baseCycles f) s
  | .dey => modifyReg decByte .y (baseCycles f) s
  | .bit m => testBits m (baseCycles f) s
  | .asl .acc => modifyReg aslByte .a (baseCycles f) s
  | .lsr .acc => modifyReg lsrByte .a (baseCycles f) s
  | .rol .acc => modifyReg rolByte .a (baseCycles f) s
  | .ror .acc => modifyReg rorByte .a (baseCycles f) s
  | .asl (.mem m) => modifyMem aslByte m (baseCycles f) s
  | .lsr (.mem m) => modifyMem lsrByte m (baseCycles f) s
  | .rol (.mem m) => modifyMem rolByte m (baseCycles f) s
  | .ror (.mem m) => modifyMem rorByte m (baseCycles f) s
  | .jmpAbs a16 => jumpTo a16 (baseCycles f) s
  | .jmpInd a16 => jumpIndirect a16 (baseCycles f) s
  | .jsr a16 => callSubroutine a16 (baseCycles f) s
  | .rts => returnSubroutine (baseCycles f) s
  | .bcc d8 => branchIf (!getFlag .c s.p) d8 (baseCycles f) s
  | .bcs d8 => branchIf (getFlag .c s.p) d8 (baseCycles f) s
  | .beq d8 => branchIf (getFlag .z s.p) d8 (baseCycles f) s
  | .bne d8 => branchIf (!getFlag .z s.p) d8 (baseCycles f) s
  | .bmi d8 => branchIf (getFlag .n s.p) d8 (baseCycles f) s
  | .bpl d8 => branchIf (!getFlag .n s.p) d8 (baseCycles f) s
  | .bvc d8 => branchIf (!getFlag .v s.p) d8 (baseCycles f) s
  | .bvs d8 => branchIf (getFlag .v s.p) d8 (baseCycles f) s
  | .brk => breakInstr (baseCycles f) s
  | .rti => finish (baseCycles f) (returnFromException s)
  | .clc => writeFlag .c false (baseCycles f) s
  | .sec => writeFlag .c true (baseCycles f) s
  | .cli => writeFlag .i false (baseCycles f) s
  | .sei => writeFlag .i true (baseCycles f) s
  | .clv => writeFlag .v false (baseCycles f) s
  | .cld => writeFlag .d false (baseCycles f) s
  | .sed => writeFlag .d true (baseCycles f) s
  | .nop => finish (baseCycles f) s
  | .undocumented op => .next (raiseFatalDecodeError op s)

/-- exec is the meaning of the instruction's mnemonic, with the cost of its row (R138, R141). -/
theorem exec_eq (i : Instr) (s : State) : exec i s = execForm i.form s := by cases i <;> rfl

/-- What BRK does, in closed form (R243). -/
theorem breakInstr_eq (base : Nat) (s : State) : breakInstr base s = .next { s with
    ram := ((s.ram.write (stackCell s.sp) (hiByte (s.pc + 1#16))).write (stackCell (s.sp - 1#8)) (loByte (s.pc + 1#16))).write
      (stackCell (s.sp - 2#8)) (pushedStatus true s.p)
    sp := s.sp - 3#8, p := setFlag .i true s.p, pc := vectorTarget irqVector s, rem := base } := by
  unfold breakInstr finish
  rw [takeException_eq _ _ _ (by decide) (by decide)]
  rfl

/-- Every instruction answers a next state, in every state. -/
theorem exec_next (i : Instr) (s : State) : ∃ t, exec i s = .next t := by
  rw [exec_eq]
  unfold execForm
  split <;>
    first
      | exact ⟨_, rfl⟩
      | (simp only [branchIf]; split <;> exact ⟨_, rfl⟩)

end Sys2Proof.Machine
end

