-- ==== Sys2Proof/Laws/Fixed.lean ====
section
/-! SUPPORT. What no instruction changes: the fault latch (but for an undocumented byte), the maskable request, the cartridge, the
parameters, the inputs, CYC, and everything the dot machine alone moves (20_memory.md R92). -/

namespace Sys2Proof.Machine

/-- `t` agrees with `s` on everything an instruction leaves alone. -/
structure Fixed (s t : State) : Prop where
  fault : t.fault = s.fault
  faultOpcode : t.faultOpcode = s.faultOpcode
  faultPc : t.faultPc = s.faultPc
  irqRequest : t.irqRequest = s.irqRequest
  params : t.params = s.params
  cart : t.cart = s.cart
  buttons : t.buttons = s.buttons
  buttons2 : t.buttons2 = s.buttons2
  cyc : t.cyc = s.cyc
  fb : t.ppu.fb = s.ppu.fb
  scanline : t.ppu.scanline = s.ppu.scanline
  dot : t.ppu.dot = s.ppu.dot
  frameCount : t.ppu.frameCount = s.ppu.frameCount
  sprites : t.ppu.sprites = s.ppu.sprites
  spriteZeroHit : t.ppu.spriteZeroHit = s.ppu.spriteZeroHit
  spriteOverflow : t.ppu.spriteOverflow = s.ppu.spriteOverflow
  bgLo : t.ppu.bgLo = s.ppu.bgLo
  bgHi : t.ppu.bgHi = s.ppu.bgHi
  atLo : t.ppu.atLo = s.ppu.atLo
  atHi : t.ppu.atHi = s.ppu.atHi
  ntLatch : t.ppu.ntLatch = s.ppu.ntLatch
  atLatch : t.ppu.atLatch = s.ppu.atLatch
  patLoLatch : t.ppu.patLoLatch = s.ppu.patLoLatch
  patHiLatch : t.ppu.patHiLatch = s.ppu.patHiLatch

theorem Fixed.refl (s : State) : Fixed s s := by constructor <;> rfl

/-- Agreement carried through an operation that agrees with its own input. -/
theorem Fixed.trans {s t u : State} (h : Fixed s t) (k : Fixed t u) : Fixed s u :=
  ⟨k.fault.trans h.fault,
    k.faultOpcode.trans h.faultOpcode,
    k.faultPc.trans h.faultPc,
    k.irqRequest.trans h.irqRequest,
    k.params.trans h.params,
    k.cart.trans h.cart,
    k.buttons.trans h.buttons,
    k.buttons2.trans h.buttons2,
    k.cyc.trans h.cyc,
    k.fb.trans h.fb,
    k.scanline.trans h.scanline,
    k.dot.trans h.dot,
    k.frameCount.trans h.frameCount,
    k.sprites.trans h.sprites,
    k.spriteZeroHit.trans h.spriteZeroHit,
    k.spriteOverflow.trans h.spriteOverflow,
    k.bgLo.trans h.bgLo,
    k.bgHi.trans h.bgHi,
    k.atLo.trans h.atLo,
    k.atHi.trans h.atHi,
    k.ntLatch.trans h.ntLatch,
    k.atLatch.trans h.atLatch,
    k.patLoLatch.trans h.patLoLatch,
    k.patHiLatch.trans h.patHiLatch⟩

theorem fixed_memRead (a : Word) (s : State) : Fixed s (memRead a s).2 := by
  rw [memRead_snd]; constructor <;> rfl

theorem fixed_memWrite (a : Word) (v : Byte) (s : State) : Fixed s (memWrite a v s) := by
  rw [memWrite_snd]; constructor <;> rfl

theorem fixed_writeReg (r : Reg) (v : Byte) (s : State) : Fixed s (writeReg r v s) := by
  cases r <;> constructor <;> rfl

theorem fixed_setP (p : Byte) (s : State) : Fixed s (setP p s) := by constructor <;> rfl

theorem fixed_setPc (w : Word) (s : State) : Fixed s (setPc w s) := by constructor <;> rfl

theorem fixed_setRem (n : Nat) (s : State) : Fixed s { s with rem := n } := by constructor <;> rfl

theorem fixed_push (v : Byte) (s : State) : Fixed s (push v s) := by rw [push_eq]; constructor <;> rfl

theorem fixed_push16 (w : Word) (s : State) : Fixed s (push16 w s) := by rw [push16_eq]; constructor <;> rfl

theorem fixed_pull (s : State) : Fixed s (pull s).2 := by rw [pull_eq]; constructor <;> rfl

theorem fixed_pull16 (s : State) : Fixed s (pull16 s).2 := by rw [pull16_eq]; constructor <;> rfl

theorem fixed_takeException (vector : Word) (brk : Bool) (s : State) : Fixed s (takeException vector brk s) :=
  ((((fixed_push16 s.pc s).trans (fixed_push _ _)).trans (fixed_setP _ _)).trans
    ((fixed_memRead _ _).trans (fixed_memRead _ _))).trans (fixed_setPc _ _)

theorem fixed_returnFromException (s : State) : Fixed s (returnFromException s) := by
  rw [returnFromException_eq]; constructor <;> rfl

theorem fixed_readSource (src : Source) (s : State) : Fixed s (readSource src s).st := by
  rcases readSource_st s src with h | ⟨a, h⟩ <;> rw [h]
  · exact Fixed.refl s
  · exact fixed_memRead a s

/-- A meaning that ends in a state agreeing with `s`. -/
theorem Fixed.finish {s t u : State} {cost : Nat} (h : Fixed s u) (e : Machine.finish cost u = .next t) : Fixed s t := by
  cases e
  exact h.trans (fixed_setRem cost u)

/-- No documented instruction changes any of it. -/
theorem exec_fixed {i : Instr} {s t : State} (h : exec i s = .next t) (hd : ∀ op, i ≠ .undocumented op) : Fixed s t := by
  rw [exec_eq] at h
  have load := fun src => fixed_readSource src s
  unfold execForm at h
  split at h
  case h_1 | h_2 | h_3 => exact Fixed.finish (((load _).trans (fixed_writeReg _ _ _)).trans (fixed_setP _ _)) h
  case h_4 | h_5 | h_6 =>
    simp only [storeReg, locate_st] at h
    exact Fixed.finish (fixed_memWrite _ _ _) h
  case h_7 | h_8 | h_9 | h_10 | h_11 => exact Fixed.finish ((fixed_writeReg _ _ _).trans (fixed_setP _ _)) h
  case h_12 => exact Fixed.finish (fixed_writeReg _ _ _) h
  case h_13 | h_14 => exact Fixed.finish (fixed_push _ _) h
  case h_15 => exact Fixed.finish (((fixed_pull s).trans (fixed_writeReg _ _ _)).trans (fixed_setP _ _)) h
  case h_16 => exact Fixed.finish ((fixed_pull s).trans (fixed_setP _ _)) h
  case h_17 | h_18 | h_19 | h_20 | h_21 => exact Fixed.finish (((load _).trans (fixed_writeReg _ _ _)).trans (fixed_setP _ _)) h
  case h_22 | h_23 | h_24 => exact Fixed.finish ((load _).trans (fixed_setP _ _)) h
  case h_25 | h_26 | h_36 | h_37 | h_38 | h_39 =>
    simp only [modifyMem, locate_st] at h
    exact Fixed.finish (((fixed_memRead _ _).trans (fixed_memWrite _ _ _)).trans (fixed_setP _ _)) h
  case h_27 | h_28 | h_29 | h_30 | h_32 | h_33 | h_34 | h_35 =>
    exact Fixed.finish ((fixed_writeReg _ _ _).trans (fixed_setP _ _)) h
  case h_31 => exact Fixed.finish ((load _).trans (fixed_setP _ _)) h
  case h_40 => exact Fixed.finish (fixed_setPc _ _) h
  case h_41 => exact Fixed.finish (((fixed_memRead _ _).trans (fixed_memRead _ _)).trans (fixed_setPc _ _)) h
  case h_42 => exact Fixed.finish ((fixed_push16 _ _).trans (fixed_setPc _ _)) h
  case h_43 => exact Fixed.finish ((fixed_pull16 _).trans (fixed_setPc _ _)) h
  case h_44 | h_45 | h_46 | h_47 | h_48 | h_49 | h_50 | h_51 =>
    unfold branchIf at h
    simp only at h
    split at h
    · exact Fixed.finish (fixed_setPc _ _) h
    · exact Fixed.finish (Fixed.refl s) h
  case h_52 => exact Fixed.finish ((fixed_setPc _ _).trans (fixed_takeException _ _ _)) h
  case h_53 => exact Fixed.finish (fixed_returnFromException s) h
  case h_54 | h_55 | h_56 | h_57 | h_58 | h_59 | h_60 => exact Fixed.finish (fixed_setP _ _) h
  case h_61 => exact Fixed.finish (Fixed.refl s) h
  case h_62 hf =>
    cases i with
    | undocumented op => exact absurd rfl (hd op)
    | _ => cases hf

/-- Only an undocumented byte sets the fault latch (60_exceptions.md R282, R284). -/
theorem exec_fault {i : Instr} {s t : State} (h : exec i s = .next t) (hs : s.fault = false) (hf : t.fault = true) :
    ∃ op, i = .undocumented op ∧ t = raiseFatalDecodeError op s := by
  by_cases hd : ∃ op, i = .undocumented op
  · obtain ⟨op, rfl⟩ := hd
    cases h
    exact ⟨op, rfl, rfl⟩
  · have := (exec_fixed h (fun op e => hd ⟨op, e⟩)).fault
    rw [hf, hs] at this
    cases this

end Sys2Proof.Machine
end

