-- ==== Sys2Proof/Laws/Tick.lean ====
section
/-! SUPPORT. The tick in closed form (61_system_bus.md R330, R331). -/

namespace Sys2Proof.Machine

/-- Whether any of `n` dots from `g` on requests the interrupt. -/
def dotsRequestNmi (chr : Memory) (mirroring : Mirroring) (n : Nat) (g : Picture) : Bool :=
  (List.range n).any (fun j => dotRequestsNmi (Nat.iterate (ppuDot chr mirroring) j g))

theorem dotsRequestNmi_succ (chr : Memory) (mirroring : Mirroring) (n : Nat) (g : Picture) : dotsRequestNmi chr mirroring (n + 1) g =
    (dotsRequestNmi chr mirroring n g || dotRequestsNmi (Nat.iterate (ppuDot chr mirroring) n g)) := by
  simp [dotsRequestNmi, List.range_succ]

/-- `k` dots of the machine. -/
theorem tickDot_iterate (k : Nat) (s : State) : Nat.iterate tickDot k s = { s with
    ppu := Nat.iterate (ppuDot s.chr s.cart.mirroring) k s.ppu
    nmiRequest := s.nmiRequest || dotsRequestNmi s.chr s.cart.mirroring k s.ppu } := by
  induction k with
  | zero => simp [dotsRequestNmi]
  | succ k ih =>
    rw [Function.iterate_succ_apply', ih, Function.iterate_succ_apply', dotsRequestNmi_succ, ← Bool.or_assoc]
    rfl

/-- `Tick(n)` is CYC plus n, `rem` minus n, and 3n dots (R331). -/
theorem tick_eq (n : Nat) : ∀ (s : State), tick n s = { s with
    cyc := s.cyc + n, rem := s.rem - n
    ppu := Nat.iterate (ppuDot s.chr s.cart.mirroring) (3 * n) s.ppu
    nmiRequest := s.nmiRequest || dotsRequestNmi s.chr s.cart.mirroring (3 * n) s.ppu } := by
  have h : ∀ (n : Nat) (s : State), tick n s = { Nat.iterate tickDot (3 * n) s with cyc := s.cyc + n, rem := s.rem - n } := by
    intro n
    induction n with
    | zero => intro s; rfl
    | succ n ih =>
      intro s
      have hc : ∀ (u : State) (c r k : Nat), Nat.iterate tickDot k { u with cyc := c, rem := r } =
          { Nat.iterate tickDot k u with cyc := c, rem := r } := by
        intro u c r k; rw [tickDot_iterate, tickDot_iterate]
      have h3 : tickCycle s = Nat.iterate tickDot 3 { s with cyc := s.cyc + 1, rem := s.rem - 1 } := rfl
      rw [tick, ih, h3, ← Function.iterate_add_apply, show 3 * n + 3 = 3 * (n + 1) by omega, hc, hc]
      exact congrArg₂ (fun c r => { Nat.iterate tickDot (3 * (n + 1)) s with cyc := c, rem := r })
        (show s.cyc + 1 + n = s.cyc + (n + 1) by omega) (show s.rem - 1 - n = s.rem - (n + 1) by omega)
  intro s
  rw [h, tickDot_iterate]

/-- The end of a step that ran to its end: it charges `rem` and the pending stall, and leaves `rem` 0. -/
theorem finishStep_eq (pending : Nat) (s : State) : finishStep pending s = { s with
    cyc := s.cyc + (s.rem + pending), rem := 0
    ppu := Nat.iterate (ppuDot s.chr s.cart.mirroring) (3 * (s.rem + pending)) s.ppu
    nmiRequest := s.nmiRequest || dotsRequestNmi s.chr s.cart.mirroring (3 * (s.rem + pending)) s.ppu } := by
  rw [finishStep, tick_eq, Nat.sub_self]

/-- `n` dots keep the Picture Generator's invariant. -/
theorem PicInv.dots {k : Nat} {g : Picture} (chr : Memory) (mirroring : Mirroring) (h : PicInv k g) (n : Nat) :
    PicInv (k + n) (Nat.iterate (ppuDot chr mirroring) n g) := by
  induction n with
  | zero => exact h
  | succ n ih => rw [Function.iterate_succ_apply']; exact ih.dot chr mirroring

/-- A field that no dot changes is unchanged after `n` dots. -/
theorem dots_keep {α : Type} (f : Picture → α) (chr : Memory) (mirroring : Mirroring) (n : Nat) (g : Picture)
    (h : ∀ g, f (ppuDot chr mirroring g) = f g) : f (Nat.iterate (ppuDot chr mirroring) n g) = f g := by
  induction n with
  | zero => rfl
  | succ n ih => rw [Function.iterate_succ_apply', h, ih]

end Sys2Proof.Machine
end

