-- ==== Sys2Proof/Laws/Inv.lean ====
section
/-! SUPPORT. What a bus access, an instruction and the end of a step keep of the machine's invariant. -/

namespace Sys2Proof.Machine

/-- The invariant inside a step: all of Inv but `rem = 0`. -/
structure MidInv (s : State) : Prop where
  status : StatusOk s.p
  stall : s.dmaStall = 0 ∨ s.dmaStall = s.params.dmaStallCycles
  pic : PicInv (3 * s.cyc) s.ppu
  latchIdx : s.latch.idx ≤ 8 ∧ s.latch.idx2 ≤ 8
  ram : s.ram.ok Config.ramSize = true
  prg : s.cart.prg.ok s.cart.prgSize.bytes = true
  chr : s.chr.ok Config.chrSize = true
  chrImage : s.cart.chrImage.ok Config.chrSize = true
  rom : s.cart.chrIsRam = false → s.chr = s.cart.chrImage
  noIrq : s.irqRequest = false

theorem Inv.mid {s : State} (h : Inv s) : MidInv s :=
  ⟨h.status, h.stall, ⟨h.position, h.frames, h.lineBuffer, h.oam, h.vram, h.pal, h.fbRows, h.fbCells⟩, h.latchIdx, h.ram, h.prg,
    h.chr, h.chrImage, h.rom, h.noIrq⟩

theorem MidInv.inv {s : State} (h : MidInv s) (hr : s.rem = 0) : Inv s :=
  ⟨h.status, hr, h.stall, h.pic.position, h.pic.frames, h.pic.lineBuffer, h.latchIdx, h.ram, h.pic.oam, h.pic.vram, h.pic.pal,
    h.pic.fbRows, h.pic.fbCells, h.prg, h.chr, h.chrImage, h.rom, h.noIrq⟩

/-- The invariant depends on these parts of the state only. -/
theorem MidInv.congr {s t : State} (h : MidInv s) (e1 : StatusOk t.p) (e2 : t.dmaStall = s.dmaStall) (e3 : t.params = s.params)
    (e4 : t.ppu = s.ppu) (e5 : t.cyc = s.cyc) (e6 : t.latch = s.latch) (e7 : t.ram = s.ram) (e8 : t.cart = s.cart)
    (e9 : t.chr = s.chr) (e10 : t.irqRequest = s.irqRequest) : MidInv t := by
  refine ⟨e1, ?_, ?_, ?_, ?_, ?_, ?_, ?_, ?_, ?_⟩
  · rw [e2, e3]; exact h.stall
  · rw [e4, e5]; exact h.pic
  · rw [e6]; exact h.latchIdx
  · rw [e7]; exact h.ram
  · rw [e8]; exact h.prg
  · rw [e9]; exact h.chr
  · rw [e8]; exact h.chrImage
  · rw [e8, e9]; exact h.rom
  · rw [e10]; exact h.noIrq

theorem MidInv.setP {s : State} (h : MidInv s) {p : Byte} (hp : StatusOk p) : MidInv (Machine.setP p s) :=
  h.congr hp rfl rfl rfl rfl rfl rfl rfl rfl rfl

theorem MidInv.setPc {s : State} (h : MidInv s) (w : Word) : MidInv (Machine.setPc w s) :=
  h.congr h.status rfl rfl rfl rfl rfl rfl rfl rfl rfl

theorem MidInv.setRem {s : State} (h : MidInv s) (n : Nat) : MidInv { s with rem := n } :=
  h.congr h.status rfl rfl rfl rfl rfl rfl rfl rfl rfl

theorem MidInv.writeReg {s : State} (h : MidInv s) (r : Reg) (v : Byte) : MidInv (Machine.writeReg r v s) :=
  h.congr (by simpa using h.status) (by simp) (by simp) (by simp) (by simp) (by simp) (by simp) (by simp) (by simp) (by simp)

/-- The Picture Generator's invariant does not look at the registers. -/
theorem PicInv.congr {k : Nat} {g g' : Picture} (h : PicInv k g) (e1 : g'.dot = g.dot) (e2 : g'.scanline = g.scanline)
    (e3 : g'.frameCount = g.frameCount) (e4 : g'.sprites = g.sprites) (e5 : g'.oam.ok Config.oamSize = true)
    (e6 : g'.vram.ok Config.vramSize = true) (e7 : paletteOk g'.pal = true) (e8 : g'.fb = g.fb) : PicInv k g' := by
  refine ⟨?_, ?_, ?_, e5, e6, e7, ?_, ?_⟩
  · rw [e1, e2]; exact h.position
  · rw [e3]; exact h.frames
  · rw [e4]; exact h.lineBuffer
  · rw [e8]; exact h.fbRows
  · rw [e8]; exact h.fbCells

theorem latchRead_idx {s : State} (h : s.latch.idx ≤ 8 ∧ s.latch.idx2 ≤ 8) :
    (latchRead s).2.latch.idx ≤ 8 ∧ (latchRead s).2.latch.idx2 ≤ 8 := by
  simp only [latchRead]
  split
  · exact ⟨Nat.zero_le _, h.2⟩
  · split
    · exact h
    · exact ⟨by simp only; omega, h.2⟩

theorem latch2Read_idx {s : State} (h : s.latch.idx ≤ 8 ∧ s.latch.idx2 ≤ 8) :
    (latch2Read s).2.latch.idx ≤ 8 ∧ (latch2Read s).2.latch.idx2 ≤ 8 := by
  simp only [latch2Read]
  split
  · exact ⟨h.1, Nat.zero_le _⟩
  · split
    · exact h
    · exact ⟨h.1, by simp only; omega⟩

theorem memRead_idx (a : Word) {s : State} (h : s.latch.idx ≤ 8 ∧ s.latch.idx2 ≤ 8) :
    (memRead a s).2.latch.idx ≤ 8 ∧ (memRead a s).2.latch.idx2 ≤ 8 := by
  unfold memRead
  split
  · exact h
  · split
    · rw [ppuRegRead_snd]; exact h
    · split
      · exact latchRead_idx h
      · split
        · split
          · exact latch2Read_idx h
          · exact h
        · split <;> exact h

/-- A bus read keeps the invariant. -/
theorem MidInv.memRead {s : State} (h : MidInv s) (a : Word) : MidInv (Machine.memRead a s).2 := by
  refine ⟨by simpa using h.status, by simpa using h.stall, ?_, memRead_idx a h.latchIdx, by simpa using h.ram, by simpa using h.prg,
    by simpa using h.chr, by simpa using h.chrImage, by simpa using h.rom, by simpa using h.noIrq⟩
  rw [memRead_cyc]
  exact h.pic.congr (by simp) (by simp) (by simp) (by simp) (by simpa using h.pic.oam) (by simpa using h.pic.vram)
    (by simpa using h.pic.pal) (by simp)

theorem paletteOk_write {m : Memory} (h : paletteOk m = true) (a : BitVec 14) (d : Byte) :
    paletteOk (m.write (palIndex a) (d &&& 0x3F#8)) = true := by
  simp only [paletteOk, Bool.and_eq_true] at h ⊢
  have hi : (a &&& 0x1F#14).toNat < 32 := by
    rw [BitVec.toNat_and]; exact Nat.lt_of_le_of_lt Nat.and_le_right (by decide)
  have hd : (d &&& 0x3F#8).toNat < 64 := by
    rw [BitVec.toNat_and]; exact Nat.lt_of_le_of_lt Nat.and_le_right (by decide)
  have key : palIndex a < 32 ∧ (palIndex a < 16 ∨ palIndex a % 4 ≠ 0) := by
    have all : ∀ i : Fin 32, (if BitVec.ofNat 14 i.val &&& 0x13#14 = 0x10#14 then (BitVec.ofNat 14 i.val &&& 0x0F#14).toNat else i.val) < 32 ∧
        ((if BitVec.ofNat 14 i.val &&& 0x13#14 = 0x10#14 then (BitVec.ofNat 14 i.val &&& 0x0F#14).toNat else i.val) < 16 ∨
          (if BitVec.ofNat 14 i.val &&& 0x13#14 = 0x10#14 then (BitVec.ofNat 14 i.val &&& 0x0F#14).toNat else i.val) % 4 ≠ 0) := by
      decide
    have := all ⟨(a &&& 0x1F#14).toNat, hi⟩
    simp only [BitVec.ofNat_toNat, BitVec.setWidth_eq] at this
    exact this
  refine ⟨⟨Memory.ok_write _ h.1.1 key.1, Memory.sixBit_write h.1.2 hd⟩, Memory.all_write h.2 ?_⟩
  simpa using key.2

theorem ntIndex_lt (m : Mirroring) (a : BitVec 14) : ntIndex m a < Config.vramSize := by
  have h1 : (a &&& 0x03FF#14).toNat < 1024 := by
    rw [BitVec.toNat_and]; exact Nat.lt_of_le_of_lt Nat.and_le_right (by decide)
  have h2 := (physicalTable m (a.extractLsb' 10 2)).isLt
  simp only [ntIndex, Config.vramSize]
  omega

/-- A Picture Generator write keeps the invariant. -/
theorem MidInv.ppuWrite {s : State} (h : MidInv s) (a : BitVec 14) (d : Byte) : MidInv (Machine.ppuWrite a d s) := by
  unfold Machine.ppuWrite
  split
  · next ha =>
    split
    · next hr =>
      exact ⟨h.status, h.stall, h.pic, h.latchIdx, h.ram, h.prg,
        Memory.ok_write d h.chr (by simp only [Config.chrSize]; omega), h.chrImage,
        fun hf => absurd (hr.symm.trans hf) (by decide), h.noIrq⟩
    · exact h
  · split
    · exact ⟨h.status, h.stall, h.pic.congr rfl rfl rfl rfl h.pic.oam (Memory.ok_write d h.pic.vram (ntIndex_lt _ a)) h.pic.pal rfl,
        h.latchIdx, h.ram, h.prg, h.chr, h.chrImage, h.rom, h.noIrq⟩
    · exact ⟨h.status, h.stall, h.pic.congr rfl rfl rfl rfl h.pic.oam h.pic.vram (paletteOk_write h.pic.pal a d) rfl,
        h.latchIdx, h.ram, h.prg, h.chr, h.chrImage, h.rom, h.noIrq⟩

/-- Changing only picture registers keeps the invariant. -/
theorem MidInv.setPpu {s : State} (h : MidInv s) {g : Picture} (n : Bool) (hg : PicInv (3 * s.cyc) g) :
    MidInv { s with ppu := g, nmiRequest := n } :=
  ⟨h.status, h.stall, hg, h.latchIdx, h.ram, h.prg, h.chr, h.chrImage, h.rom, h.noIrq⟩

theorem PicInv.oamDataWrite {k : Nat} {g : Picture} (h : PicInv k g) (d : Byte) : PicInv k (Machine.oamDataWrite d g) :=
  h.congr rfl rfl rfl rfl (Memory.ok_write d h.oam g.oamAddr.isLt) h.vram h.pal rfl

/-- A write to a picture register keeps the invariant. -/
theorem MidInv.ppuRegWrite {s : State} (h : MidInv s) (r : Nat) (d : Byte) : MidInv (Machine.ppuRegWrite r d s) := by
  have regs : ∀ g : Picture, g.dot = s.ppu.dot → g.scanline = s.ppu.scanline → g.frameCount = s.ppu.frameCount →
      g.sprites = s.ppu.sprites → g.oam = s.ppu.oam → g.vram = s.ppu.vram → g.pal = s.ppu.pal → g.fb = s.ppu.fb →
      PicInv (3 * s.cyc) g := fun g e1 e2 e3 e4 e5 e6 e7 e8 =>
    h.pic.congr e1 e2 e3 e4 (e5 ▸ h.pic.oam) (e6 ▸ h.pic.vram) (e7 ▸ h.pic.pal) e8
  unfold Machine.ppuRegWrite
  split
  · exact h.setPpu _ (regs _ rfl rfl rfl rfl rfl rfl rfl rfl)
  · exact h.setPpu _ (regs _ rfl rfl rfl rfl rfl rfl rfl rfl)
  · exact h.setPpu _ (regs _ rfl rfl rfl rfl rfl rfl rfl rfl)
  · exact h.setPpu _ (h.pic.oamDataWrite d)
  · refine h.setPpu _ ?_
    unfold scrollWrite
    split <;> exact regs _ rfl rfl rfl rfl rfl rfl rfl rfl
  · refine h.setPpu _ ?_
    unfold addrWrite
    split <;> exact regs _ rfl rfl rfl rfl rfl rfl rfl rfl
  · have hw := h.ppuWrite (s.ppu.v.setWidth 14) d
    exact hw.setPpu _ (hw.pic.congr rfl rfl rfl rfl hw.pic.oam hw.pic.vram hw.pic.pal rfl)
  · exact h

theorem MidInv.setLatch {s : State} (h : MidInv s) {l : Latch} (hl : l.idx ≤ 8 ∧ l.idx2 ≤ 8) : MidInv { s with latch := l } :=
  ⟨h.status, h.stall, h.pic, hl, h.ram, h.prg, h.chr, h.chrImage, h.rom, h.noIrq⟩

theorem MidInv.latchStrobe {s : State} (h : MidInv s) (b : Bool) : MidInv (Machine.latchStrobe b s) := by
  unfold Machine.latchStrobe
  simp only
  split
  · split
    · exact h.setLatch ⟨Nat.zero_le _, Nat.zero_le _⟩
    · exact h.setLatch ⟨Nat.zero_le _, h.latchIdx.2⟩
  · exact h.setLatch h.latchIdx

theorem MidInv.dmaCopy (page : Byte) (n : Nat) : ∀ (i : Nat) {s : State}, MidInv s → MidInv (Machine.dmaCopy page n i s) := by
  induction n with
  | zero => intro i s h; exact h
  | succ n ih =>
    intro i s h
    have hr := h.memRead (wordOf (BitVec.ofNat 8 i) page)
    exact ih (i + 1) (hr.setPpu _ (hr.pic.oamDataWrite _))

theorem MidInv.oamDma {s : State} (h : MidInv s) (page : Byte) : MidInv (Machine.oamDma page s) := by
  have hc := MidInv.dmaCopy page 256 0 h
  exact ⟨hc.status, .inr rfl, hc.pic, hc.latchIdx, hc.ram, hc.prg, hc.chr, hc.chrImage, hc.rom, hc.noIrq⟩

theorem MidInv.writeRam {s : State} (h : MidInv s) (a : Nat) (v : Byte) (ha : a < Config.ramSize) :
    MidInv { s with ram := s.ram.write a v } :=
  ⟨h.status, h.stall, h.pic, h.latchIdx, Memory.ok_write v h.ram ha, h.prg, h.chr, h.chrImage, h.rom, h.noIrq⟩

/-- A bus write keeps the invariant. -/
theorem MidInv.memWrite {s : State} (h : MidInv s) (a : Word) (v : Byte) : MidInv (Machine.memWrite a v s) := by
  unfold Machine.memWrite
  split
  · exact h.writeRam _ _ (Nat.mod_lt _ (by decide))
  · split
    · exact h.ppuRegWrite _ _
    · split
      · exact h.oamDma v
      · split
        · exact h.latchStrobe _
        · split
          · exact h
          · exact h

theorem MidInv.push {s : State} (h : MidInv s) (v : Byte) : MidInv (Machine.push v s) :=
  (h.memWrite _ _).writeReg .s _

theorem MidInv.pull {s : State} (h : MidInv s) : MidInv (Machine.pull s).2 := (h.writeReg .s _).memRead _

theorem MidInv.push16 {s : State} (h : MidInv s) (w : Word) : MidInv (Machine.push16 w s) := (h.push _).push _

theorem MidInv.pull16 {s : State} (h : MidInv s) : MidInv (Machine.pull16 s).2 := h.pull.pull

theorem MidInv.memRead16 {s : State} (h : MidInv s) (a : Word) : MidInv (Machine.memRead16 a s).2 := (h.memRead _).memRead _

theorem MidInv.takeException {s : State} (h : MidInv s) (vector : Word) (brk : Bool) : MidInv (Machine.takeException vector brk s) := by
  have h2 := (h.push16 s.pc).push (pushedStatus brk (Machine.push16 s.pc s).p)
  exact ((h2.setP (h2.status.setFlag true (by decide))).memRead16 vector).setPc _

theorem MidInv.returnFromException {s : State} (h : MidInv s) : MidInv (Machine.returnFromException s) :=
  ((h.pull.setP (StatusOk.pulled _)).pull16).setPc _

theorem MidInv.readSource {s : State} (h : MidInv s) (src : Source) : MidInv (Machine.readSource src s).st := by
  rcases readSource_st s src with e | ⟨a, e⟩ <;> rw [e]
  · exact h
  · exact h.memRead a

/-- The flag operation of an arithmetic or shift rule keeps B and U. -/
def KeepsStatus (f : Byte → Byte → Byte → Byte × Byte) : Prop := ∀ a m p, StatusOk p → StatusOk (f a m p).2

theorem keeps_adc : KeepsStatus adcByte := fun a m _ h => h.adcByte a m
theorem keeps_sbc : KeepsStatus sbcByte := fun a m _ h => h.adcByte a (m ^^^ 0xFF#8)
theorem keeps_and : KeepsStatus andByte := fun _ _ _ h => h.setZN _
theorem keeps_ora : KeepsStatus oraByte := fun _ _ _ h => h.setZN _
theorem keeps_eor : KeepsStatus eorByte := fun _ _ _ h => h.setZN _

/-- What an instruction's meaning keeps: if it answers a next state, the invariant holds there. -/
def Keeps (r : StepResult) : Prop := ∀ t, r = .next t → MidInv t

theorem Keeps.next {t : State} (h : MidInv t) : Keeps (.next t) := by
  intro u e
  cases e
  exact h

theorem Keeps.finish {t : State} (h : MidInv t) (cost : Nat) : Keeps (Machine.finish cost t) := Keeps.next (h.setRem cost)

theorem keeps_load {s : State} (h : MidInv s) (r : Reg) (src : Source) (base : Nat) : Keeps (loadReg r src base s) :=
  Keeps.finish (((h.readSource src).writeReg r _).setP ((h.readSource src).status.setZN _)) _

theorem keeps_store {s : State} (h : MidInv s) (r : Reg) (m : AddrMode) (base : Nat) : Keeps (storeReg r m base s) := by
  unfold storeReg
  simp only [locate_st]
  exact Keeps.finish (h.memWrite _ _) _

theorem keeps_transfer {s : State} (h : MidInv s) (src dst : Reg) (base : Nat) : Keeps (transferFlags src dst base s) :=
  Keeps.finish ((h.writeReg dst _).setP (h.status.setZN _)) _

theorem keeps_accumulate {s : State} (h : MidInv s) {f : Byte → Byte → Byte → Byte × Byte} (hf : KeepsStatus f) (src : Source)
    (base : Nat) : Keeps (accumulate f src base s) :=
  Keeps.finish (((h.readSource src).writeReg .a _).setP (hf _ _ _ (h.readSource src).status)) _

theorem keeps_compare {s : State} (h : MidInv s) (r : Reg) (src : Source) (base : Nat) : Keeps (compareReg r src base s) :=
  Keeps.finish ((h.readSource src).setP ((h.readSource src).status.compareFlags _ _)) _

theorem keeps_modifyMem {s : State} (h : MidInv s) {f : Byte → Byte → Byte × Byte} (hf : ∀ m p, StatusOk p → StatusOk (f m p).2)
    (m : AddrMode) (base : Nat) : Keeps (modifyMem f m base s) := by
  unfold modifyMem
  simp only [locate_st]
  exact Keeps.finish (((h.memRead _).memWrite _ _).setP (hf _ _ (h.memRead _).status)) _

theorem keeps_modifyReg {s : State} (h : MidInv s) {f : Byte → Byte → Byte × Byte} (hf : ∀ m p, StatusOk p → StatusOk (f m p).2)
    (r : Reg) (base : Nat) : Keeps (modifyReg f r base s) :=
  Keeps.finish ((h.writeReg r _).setP (hf _ _ h.status)) _

theorem keeps_branch {s : State} (h : MidInv s) (cond : Bool) (d8 : Byte) (base : Nat) : Keeps (branchIf cond d8 base s) := by
  unfold branchIf
  simp only
  split
  · exact Keeps.finish (h.setPc _) _
  · exact Keeps.finish h _

theorem keeps_writeFlag {s : State} (h : MidInv s) {f : Flag} (val : Bool) (hf : f ≠ .b ∧ f ≠ .u) (base : Nat) :
    Keeps (writeFlag f val base s) := Keeps.finish (h.setP (h.status.setFlag val hf)) _

/-- Every instruction keeps the invariant. -/
theorem exec_keeps (i : Instr) {s : State} (h : MidInv s) : Keeps (exec i s) := by
  have hinc : ∀ m p, StatusOk p → StatusOk (incByte m p).2 := fun _ _ hp => hp.setZN _
  have hdec : ∀ m p, StatusOk p → StatusOk (decByte m p).2 := fun _ _ hp => hp.setZN _
  have hasl : ∀ m p, StatusOk p → StatusOk (aslByte m p).2 := fun _ _ hp => hp.shift _ _
  have hlsr : ∀ m p, StatusOk p → StatusOk (lsrByte m p).2 := fun _ _ hp => hp.shift _ _
  have hrol : ∀ m p, StatusOk p → StatusOk (rolByte m p).2 := fun _ _ hp => hp.shift _ _
  have hror : ∀ m p, StatusOk p → StatusOk (rorByte m p).2 := fun _ _ hp => hp.shift _ _
  rw [exec_eq]
  unfold execForm
  split
  case h_1 | h_2 | h_3 => exact keeps_load h _ _ _
  case h_4 | h_5 | h_6 => exact keeps_store h _ _ _
  case h_7 | h_8 | h_9 | h_10 | h_11 => exact keeps_transfer h _ _ _
  case h_12 => exact Keeps.finish (h.writeReg _ _) _
  case h_13 | h_14 => exact Keeps.finish (h.push _) _
  case h_15 => exact Keeps.finish ((h.pull.writeReg .a _).setP (h.pull.status.setZN _)) _
  case h_16 => exact Keeps.finish (h.pull.setP (StatusOk.pulled _)) _
  case h_17 => exact keeps_accumulate h keeps_adc _ _
  case h_18 => exact keeps_accumulate h keeps_sbc _ _
  case h_19 => exact keeps_accumulate h keeps_and _ _
  case h_20 => exact keeps_accumulate h keeps_ora _ _
  case h_21 => exact keeps_accumulate h keeps_eor _ _
  case h_22 | h_23 | h_24 => exact keeps_compare h _ _ _
  case h_25 => exact keeps_modifyMem h hinc _ _
  case h_26 => exact keeps_modifyMem h hdec _ _
  case h_27 | h_28 => exact keeps_modifyReg h hinc _ _
  case h_29 | h_30 => exact keeps_modifyReg h hdec _ _
  case h_31 => exact Keeps.finish ((h.readSource _).setP ((h.readSource _).status.bitFlags _ _)) _
  case h_32 => exact keeps_modifyReg h hasl _ _
  case h_33 => exact keeps_modifyReg h hlsr _ _
  case h_34 => exact keeps_modifyReg h hrol _ _
  case h_35 => exact keeps_modifyReg h hror _ _
  case h_36 => exact keeps_modifyMem h hasl _ _
  case h_37 => exact keeps_modifyMem h hlsr _ _
  case h_38 => exact keeps_modifyMem h hrol _ _
  case h_39 => exact keeps_modifyMem h hror _ _
  case h_40 => exact Keeps.finish (h.setPc _) _
  case h_41 => exact Keeps.finish (((h.memRead _).memRead _).setPc _) _
  case h_42 => exact Keeps.finish ((h.push16 _).setPc _) _
  case h_43 => exact Keeps.finish (h.pull16.setPc _) _
  case h_44 | h_45 | h_46 | h_47 | h_48 | h_49 | h_50 | h_51 => exact keeps_branch h _ _ _
  case h_52 => exact Keeps.finish ((h.setPc _).takeException _ _) _
  case h_53 => exact Keeps.finish h.returnFromException _
  case h_54 | h_55 | h_56 | h_57 | h_58 | h_59 | h_60 => exact keeps_writeFlag h _ (by decide) _
  case h_61 => exact Keeps.finish h _
  case h_62 => exact Keeps.next (h.congr h.status rfl rfl rfl rfl rfl rfl rfl rfl rfl)

theorem MidInv.fetch8 {s : State} (h : MidInv s) : MidInv (Machine.fetch8 s).2 := (h.memRead _).setPc _

theorem MidInv.fetchInstruction {s : State} (h : MidInv s) : MidInv (Machine.fetchInstruction s).2 := by
  unfold Machine.fetchInstruction
  simp only
  split
  · exact h.fetch8.fetch8.fetch8
  · exact h.fetch8.fetch8
  · exact h.fetch8

/-- The end of a step that ran to its end restores the whole invariant. -/
theorem MidInv.finishStep {s : State} (h : MidInv s) (pending : Nat) : Inv (Machine.finishStep pending s) := by
  rw [finishStep_eq]
  refine MidInv.inv ⟨h.status, h.stall, ?_, h.latchIdx, h.ram, h.prg, h.chr, h.chrImage, h.rom, h.noIrq⟩ rfl
  have := h.pic.dots s.chr s.cart.mirroring (3 * (s.rem + pending))
  rw [← Nat.mul_add] at this
  exact this

end Sys2Proof.Machine
end

