-- ==== Sys2Proof/Laws/PerInstr.lean ====
section
/-! SUPPORT. Statements made for every instruction, one lemma per constructor. The family OpcodeLength: the encoding of a well-formed
instruction is as long as the length column of its opcode byte says (30_encoding.md R120, R141). -/

namespace Sys2Proof.Laws.OpcodeLength

/-- The family's statement about one instruction. -/
def Statement (i : Instr) : Prop := i.wf = true → (encode i).length = instrLength ((encode i).headD 0#8)

theorem ldaImm (d8 : Byte) : Statement (.ldaImm d8) := fun _ => rfl

theorem ldaZp (d8 : Byte) : Statement (.ldaZp d8) := fun _ => rfl

theorem ldaZpx (d8 : Byte) : Statement (.ldaZpx d8) := fun _ => rfl

theorem ldaAbs (a16 : Word) : Statement (.ldaAbs a16) := fun _ => rfl

theorem ldaAbx (a16 : Word) : Statement (.ldaAbx a16) := fun _ => rfl

theorem ldaAby (a16 : Word) : Statement (.ldaAby a16) := fun _ => rfl

theorem ldaIzx (d8 : Byte) : Statement (.ldaIzx d8) := fun _ => rfl

theorem ldaIzy (d8 : Byte) : Statement (.ldaIzy d8) := fun _ => rfl

theorem ldxImm (d8 : Byte) : Statement (.ldxImm d8) := fun _ => rfl

theorem ldxZp (d8 : Byte) : Statement (.ldxZp d8) := fun _ => rfl

theorem ldxZpy (d8 : Byte) : Statement (.ldxZpy d8) := fun _ => rfl

theorem ldxAbs (a16 : Word) : Statement (.ldxAbs a16) := fun _ => rfl

theorem ldxAby (a16 : Word) : Statement (.ldxAby a16) := fun _ => rfl

theorem ldyImm (d8 : Byte) : Statement (.ldyImm d8) := fun _ => rfl

theorem ldyZp (d8 : Byte) : Statement (.ldyZp d8) := fun _ => rfl

theorem ldyZpx (d8 : Byte) : Statement (.ldyZpx d8) := fun _ => rfl

theorem ldyAbs (a16 : Word) : Statement (.ldyAbs a16) := fun _ => rfl

theorem ldyAbx (a16 : Word) : Statement (.ldyAbx a16) := fun _ => rfl

theorem staZp (d8 : Byte) : Statement (.staZp d8) := fun _ => rfl

theorem staZpx (d8 : Byte) : Statement (.staZpx d8) := fun _ => rfl

theorem staAbs (a16 : Word) : Statement (.staAbs a16) := fun _ => rfl

theorem staAbx (a16 : Word) : Statement (.staAbx a16) := fun _ => rfl

theorem staAby (a16 : Word) : Statement (.staAby a16) := fun _ => rfl

theorem staIzx (d8 : Byte) : Statement (.staIzx d8) := fun _ => rfl

theorem staIzy (d8 : Byte) : Statement (.staIzy d8) := fun _ => rfl

theorem stxZp (d8 : Byte) : Statement (.stxZp d8) := fun _ => rfl

theorem stxZpy (d8 : Byte) : Statement (.stxZpy d8) := fun _ => rfl

theorem stxAbs (a16 : Word) : Statement (.stxAbs a16) := fun _ => rfl

theorem styZp (d8 : Byte) : Statement (.styZp d8) := fun _ => rfl

theorem styZpx (d8 : Byte) : Statement (.styZpx d8) := fun _ => rfl

theorem styAbs (a16 : Word) : Statement (.styAbs a16) := fun _ => rfl

theorem tax : Statement .tax := fun _ => rfl

theorem tay : Statement .tay := fun _ => rfl

theorem txa : Statement .txa := fun _ => rfl

theorem tya : Statement .tya := fun _ => rfl

theorem tsx : Statement .tsx := fun _ => rfl

theorem txs : Statement .txs := fun _ => rfl

theorem pha : Statement .pha := fun _ => rfl

theorem php : Statement .php := fun _ => rfl

theorem pla : Statement .pla := fun _ => rfl

theorem plp : Statement .plp := fun _ => rfl

theorem adcImm (d8 : Byte) : Statement (.adcImm d8) := fun _ => rfl

theorem adcZp (d8 : Byte) : Statement (.adcZp d8) := fun _ => rfl

theorem adcZpx (d8 : Byte) : Statement (.adcZpx d8) := fun _ => rfl

theorem adcAbs (a16 : Word) : Statement (.adcAbs a16) := fun _ => rfl

theorem adcAbx (a16 : Word) : Statement (.adcAbx a16) := fun _ => rfl

theorem adcAby (a16 : Word) : Statement (.adcAby a16) := fun _ => rfl

theorem adcIzx (d8 : Byte) : Statement (.adcIzx d8) := fun _ => rfl

theorem adcIzy (d8 : Byte) : Statement (.adcIzy d8) := fun _ => rfl

theorem sbcImm (d8 : Byte) : Statement (.sbcImm d8) := fun _ => rfl

theorem sbcZp (d8 : Byte) : Statement (.sbcZp d8) := fun _ => rfl

theorem sbcZpx (d8 : Byte) : Statement (.sbcZpx d8) := fun _ => rfl

theorem sbcAbs (a16 : Word) : Statement (.sbcAbs a16) := fun _ => rfl

theorem sbcAbx (a16 : Word) : Statement (.sbcAbx a16) := fun _ => rfl

theorem sbcAby (a16 : Word) : Statement (.sbcAby a16) := fun _ => rfl

theorem sbcIzx (d8 : Byte) : Statement (.sbcIzx d8) := fun _ => rfl

theorem sbcIzy (d8 : Byte) : Statement (.sbcIzy d8) := fun _ => rfl

theorem cmpImm (d8 : Byte) : Statement (.cmpImm d8) := fun _ => rfl

theorem cmpZp (d8 : Byte) : Statement (.cmpZp d8) := fun _ => rfl

theorem cmpZpx (d8 : Byte) : Statement (.cmpZpx d8) := fun _ => rfl

theorem cmpAbs (a16 : Word) : Statement (.cmpAbs a16) := fun _ => rfl

theorem cmpAbx (a16 : Word) : Statement (.cmpAbx a16) := fun _ => rfl

theorem cmpAby (a16 : Word) : Statement (.cmpAby a16) := fun _ => rfl

theorem cmpIzx (d8 : Byte) : Statement (.cmpIzx d8) := fun _ => rfl

theorem cmpIzy (d8 : Byte) : Statement (.cmpIzy d8) := fun _ => rfl

theorem cpxImm (d8 : Byte) : Statement (.cpxImm d8) := fun _ => rfl

theorem cpxZp (d8 : Byte) : Statement (.cpxZp d8) := fun _ => rfl

theorem cpxAbs (a16 : Word) : Statement (.cpxAbs a16) := fun _ => rfl

theorem cpyImm (d8 : Byte) : Statement (.cpyImm d8) := fun _ => rfl

theorem cpyZp (d8 : Byte) : Statement (.cpyZp d8) := fun _ => rfl

theorem cpyAbs (a16 : Word) : Statement (.cpyAbs a16) := fun _ => rfl

theorem incZp (d8 : Byte) : Statement (.incZp d8) := fun _ => rfl

theorem incZpx (d8 : Byte) : Statement (.incZpx d8) := fun _ => rfl

theorem incAbs (a16 : Word) : Statement (.incAbs a16) := fun _ => rfl

theorem incAbx (a16 : Word) : Statement (.incAbx a16) := fun _ => rfl

theorem inx : Statement .inx := fun _ => rfl

theorem iny : Statement .iny := fun _ => rfl

theorem decZp (d8 : Byte) : Statement (.decZp d8) := fun _ => rfl

theorem decZpx (d8 : Byte) : Statement (.decZpx d8) := fun _ => rfl

theorem decAbs (a16 : Word) : Statement (.decAbs a16) := fun _ => rfl

theorem decAbx (a16 : Word) : Statement (.decAbx a16) := fun _ => rfl

theorem dex : Statement .dex := fun _ => rfl

theorem dey : Statement .dey := fun _ => rfl

theorem andImm (d8 : Byte) : Statement (.andImm d8) := fun _ => rfl

theorem andZp (d8 : Byte) : Statement (.andZp d8) := fun _ => rfl

theorem andZpx (d8 : Byte) : Statement (.andZpx d8) := fun _ => rfl

theorem andAbs (a16 : Word) : Statement (.andAbs a16) := fun _ => rfl

theorem andAbx (a16 : Word) : Statement (.andAbx a16) := fun _ => rfl

theorem andAby (a16 : Word) : Statement (.andAby a16) := fun _ => rfl

theorem andIzx (d8 : Byte) : Statement (.andIzx d8) := fun _ => rfl

theorem andIzy (d8 : Byte) : Statement (.andIzy d8) := fun _ => rfl

theorem oraImm (d8 : Byte) : Statement (.oraImm d8) := fun _ => rfl

theorem oraZp (d8 : Byte) : Statement (.oraZp d8) := fun _ => rfl

theorem oraZpx (d8 : Byte) : Statement (.oraZpx d8) := fun _ => rfl

theorem oraAbs (a16 : Word) : Statement (.oraAbs a16) := fun _ => rfl

theorem oraAbx (a16 : Word) : Statement (.oraAbx a16) := fun _ => rfl

theorem oraAby (a16 : Word) : Statement (.oraAby a16) := fun _ => rfl

theorem oraIzx (d8 : Byte) : Statement (.oraIzx d8) := fun _ => rfl

theorem oraIzy (d8 : Byte) : Statement (.oraIzy d8) := fun _ => rfl

theorem eorImm (d8 : Byte) : Statement (.eorImm d8) := fun _ => rfl

theorem eorZp (d8 : Byte) : Statement (.eorZp d8) := fun _ => rfl

theorem eorZpx (d8 : Byte) : Statement (.eorZpx d8) := fun _ => rfl

theorem eorAbs (a16 : Word) : Statement (.eorAbs a16) := fun _ => rfl

theorem eorAbx (a16 : Word) : Statement (.eorAbx a16) := fun _ => rfl

theorem eorAby (a16 : Word) : Statement (.eorAby a16) := fun _ => rfl

theorem eorIzx (d8 : Byte) : Statement (.eorIzx d8) := fun _ => rfl

theorem eorIzy (d8 : Byte) : Statement (.eorIzy d8) := fun _ => rfl

theorem bitZp (d8 : Byte) : Statement (.bitZp d8) := fun _ => rfl

theorem bitAbs (a16 : Word) : Statement (.bitAbs a16) := fun _ => rfl

theorem aslAcc : Statement .aslAcc := fun _ => rfl

theorem aslZp (d8 : Byte) : Statement (.aslZp d8) := fun _ => rfl

theorem aslZpx (d8 : Byte) : Statement (.aslZpx d8) := fun _ => rfl

theorem aslAbs (a16 : Word) : Statement (.aslAbs a16) := fun _ => rfl

theorem aslAbx (a16 : Word) : Statement (.aslAbx a16) := fun _ => rfl

theorem lsrAcc : Statement .lsrAcc := fun _ => rfl

theorem lsrZp (d8 : Byte) : Statement (.lsrZp d8) := fun _ => rfl

theorem lsrZpx (d8 : Byte) : Statement (.lsrZpx d8) := fun _ => rfl

theorem lsrAbs (a16 : Word) : Statement (.lsrAbs a16) := fun _ => rfl

theorem lsrAbx (a16 : Word) : Statement (.lsrAbx a16) := fun _ => rfl

theorem rolAcc : Statement .rolAcc := fun _ => rfl

theorem rolZp (d8 : Byte) : Statement (.rolZp d8) := fun _ => rfl

theorem rolZpx (d8 : Byte) : Statement (.rolZpx d8) := fun _ => rfl

theorem rolAbs (a16 : Word) : Statement (.rolAbs a16) := fun _ => rfl

theorem rolAbx (a16 : Word) : Statement (.rolAbx a16) := fun _ => rfl

theorem rorAcc : Statement .rorAcc := fun _ => rfl

theorem rorZp (d8 : Byte) : Statement (.rorZp d8) := fun _ => rfl

theorem rorZpx (d8 : Byte) : Statement (.rorZpx d8) := fun _ => rfl

theorem rorAbs (a16 : Word) : Statement (.rorAbs a16) := fun _ => rfl

theorem rorAbx (a16 : Word) : Statement (.rorAbx a16) := fun _ => rfl

theorem jmpAbs (a16 : Word) : Statement (.jmpAbs a16) := fun _ => rfl

theorem jmpInd (a16 : Word) : Statement (.jmpInd a16) := fun _ => rfl

theorem jsr (a16 : Word) : Statement (.jsr a16) := fun _ => rfl

theorem rts : Statement .rts := fun _ => rfl

theorem bcc (d8 : Byte) : Statement (.bcc d8) := fun _ => rfl

theorem bcs (d8 : Byte) : Statement (.bcs d8) := fun _ => rfl

theorem beq (d8 : Byte) : Statement (.beq d8) := fun _ => rfl

theorem bne (d8 : Byte) : Statement (.bne d8) := fun _ => rfl

theorem bmi (d8 : Byte) : Statement (.bmi d8) := fun _ => rfl

theorem bpl (d8 : Byte) : Statement (.bpl d8) := fun _ => rfl

theorem bvc (d8 : Byte) : Statement (.bvc d8) := fun _ => rfl

theorem bvs (d8 : Byte) : Statement (.bvs d8) := fun _ => rfl

theorem brk : Statement .brk := fun _ => rfl

theorem rti : Statement .rti := fun _ => rfl

theorem clc : Statement .clc := fun _ => rfl

theorem sec : Statement .sec := fun _ => rfl

theorem cli : Statement .cli := fun _ => rfl

theorem sei : Statement .sei := fun _ => rfl

theorem clv : Statement .clv := fun _ => rfl

theorem cld : Statement .cld := fun _ => rfl

theorem sed : Statement .sed := fun _ => rfl

theorem nop : Statement .nop := fun _ => rfl

theorem undocumented (opcode : Byte) : Statement (.undocumented opcode) := by
  intro h
  have hall : ∀ op ∈ undocumentedBytes, instrLength op = 1 := by decide +kernel
  exact (hall opcode (by simpa [Instr.wf] using h)).symm

end Sys2Proof.Laws.OpcodeLength
end

