-- ==== Sys2Proof/Laws/Reset.lean ====
section
/-! SUPPORT. The reset sequence (70_reset_and_hazards.md R510) in closed form, and State.reset as its result. -/

namespace Sys2Proof.Machine

/-- Reset reads the vector from the cartridge and nothing else. -/
theorem resetSequence_eq (s : State) : resetSequence s =
    tick s.params.resetCycles { resetRegisters s with pc := vectorTarget resetVector s } := by
  have h : memRead16 resetVector (resetRegisters s) = (vectorTarget resetVector s, resetRegisters s) :=
    memRead16_prg resetVector (resetRegisters s) (by decide) (by decide)
  simp only [resetSequence, h]
  rfl

/-- State.reset is what the reset sequence leaves of the machine with the blank cartridge and the default parameters. -/
theorem reset_eq : State.reset = resetSequence State.reset := by decide +kernel

/-- Cells with one value at rising addresses are a canonical memory. -/
theorem Memory.wf_map {b : Byte} (hb : b ≠ blankByte) {l : List Nat} (h : l.Pairwise (· < ·)) :
    Memory.wf (l.map (fun i => (i, b))) = true := by
  induction l with
  | nil => rfl
  | cons a l ih =>
    obtain ⟨h1, h2⟩ := List.pairwise_cons.mp h
    exact (Memory.wf_cons (a, b) _).mpr ⟨hb, by simpa using h1, ih h2⟩

/-- The palette after reset (R510, R48). -/
theorem paletteOk_fill {b : Byte} (hb : b.toNat < 64) : paletteOk (fillPalette b) = true := by
  unfold fillPalette
  split
  · rfl
  · next hne =>
    simp only [paletteOk, Memory.ok, Memory.below, Memory.sixBit, Bool.and_eq_true, List.all_map, List.all_eq_true]
    refine ⟨⟨⟨Memory.wf_map hne (by decide), fun i hi => ?_⟩, fun i _ => ?_⟩, fun i hi => ?_⟩
    · have := List.mem_range.mp (List.mem_filter.mp hi).1
      exact decide_eq_true this
    · simpa using hb
    · exact (List.mem_filter.mp hi).2

/-- The state before the reset tick satisfies the invariant, whatever the cartridge and the parameters. -/
theorem midInv_resetRegisters {s : State} (h1 : s.cart.prg.ok s.cart.prgSize.bytes = true) (h2 : s.chr.ok Config.chrSize = true)
    (h3 : s.cart.chrImage.ok Config.chrSize = true) (h4 : s.cart.chrIsRam = false → s.chr = s.cart.chrImage) :
    MidInv (resetRegisters s) := by
  have hpal : paletteOk (fillPalette (s.params.ramInit &&& 0x3F#8)) = true :=
    paletteOk_fill (by rw [BitVec.toNat_and]; exact Nat.lt_of_le_of_lt Nat.and_le_right (by decide))
  have hst : StatusOk resetP := by unfold StatusOk; decide
  refine ⟨hst, .inl rfl, ⟨⟨?_, ?_⟩, ?_, Nat.zero_le _, Memory.fill_ok _ _, Memory.fill_ok _ _, hpal, ?_, ?_⟩,
    ⟨Nat.zero_le _, Nat.zero_le _⟩, Memory.fill_ok _ _, h1, ?_, h3, ?_, rfl⟩
  · show (0 : Nat) < 341
    omega
  · show 0 * 341 + 0 = (3 * 0) % dotsPerFrame
    decide
  · show 0 = (3 * 0 + 7159) / dotsPerFrame
    decide
  · exact List.length_replicate
  · show (List.replicate Config.fbHeight ([] : Memory)).all rowOk = true
    rw [List.all_replicate]; decide
  · show Memory.ok Config.chrSize (if s.cart.chrIsRam then s.cart.chrImage else s.chr) = true
    split <;> assumption
  · intro hr
    show (if s.cart.chrIsRam then s.cart.chrImage else s.chr) = s.cart.chrImage
    have hr' : s.cart.chrIsRam = false := hr
    rw [if_neg (by rw [hr']; decide)]
    exact h4 hr'

end Sys2Proof.Machine
end

