-- ==== Sys2Proof/Laws/Step.lean ====
section
/-! SUPPORT. The step, arm by arm (60_exceptions.md R280, R282, R290), and everything a step that answers a next state can be. -/

namespace Sys2Proof.Machine

/-- The state a step works on: the pending stall is taken (R280). -/
abbrev takeStall (s : State) : State := { s with dmaStall := 0 }

/-- A machine whose fault latch is set has no step (R282). -/
theorem step_of_fault {s : State} (hf : s.fault = true) : step s = .fault (.fatalDecodeError s.faultOpcode s.faultPc) := by
  rw [step, if_pos hf]

theorem poll_takeStall (s : State) : pollInterrupt (takeStall s) = pollInterrupt s := rfl

/-- Nothing to take: no NMI, and no maskable request that P.I lets through (R290). -/
theorem poll_none {s : State} (h1 : s.nmiRequest = false) (h2 : s.irqRequest = false ∨ getFlag .i s.p = true) :
    pollInterrupt s = .none := by
  rw [pollInterrupt, h1]
  rcases h2 with h2 | h2 <;> rw [h2] <;> simp

theorem poll_nmi {s : State} (h : s.nmiRequest = true) : pollInterrupt s = .nmi := by rw [pollInterrupt, if_pos h]

theorem poll_irq {s : State} (h1 : s.nmiRequest = false) (h2 : s.irqRequest = true) (h3 : getFlag .i s.p = false) :
    pollInterrupt s = .irq := by rw [pollInterrupt, h1, h2, h3]; rfl

theorem step_nmi {s : State} (hf : s.fault = false) (hp : pollInterrupt s = .nmi) :
    step s = .next (finishStep s.dmaStall (serviceNmi (takeStall s))) := by
  rw [step, if_neg (by rw [hf]; decide)]
  simp only [poll_takeStall, hp]

theorem step_irq {s : State} (hf : s.fault = false) (hp : pollInterrupt s = .irq) :
    step s = .next (finishStep s.dmaStall (serviceIrq (takeStall s))) := by
  rw [step, if_neg (by rw [hf]; decide)]
  simp only [poll_takeStall, hp]

/-- With no interrupt to take, the step runs the instruction at PC, which always answers a next state. -/
theorem step_instr {s : State} (hf : s.fault = false) (hp : pollInterrupt s = .none) :
    ∃ u, exec (fetchInstruction (takeStall s)).1 (fetchInstruction (takeStall s)).2 = .next u ∧
      step s = .next (completeStep s.dmaStall u) := by
  obtain ⟨u, hu⟩ := exec_next (fetchInstruction (takeStall s)).1 (fetchInstruction (takeStall s)).2
  refine ⟨u, hu, ?_⟩
  rw [step, if_neg (by rw [hf]; decide)]
  simp only [poll_takeStall, hp, hu]

/-- Everything a step that answers a next state can be. -/
theorem step_cases {s t : State} (h : step s = .next t) : s.fault = false ∧
    ((pollInterrupt s = .nmi ∧ t = finishStep s.dmaStall (serviceNmi (takeStall s))) ∨
     (pollInterrupt s = .irq ∧ t = finishStep s.dmaStall (serviceIrq (takeStall s))) ∨
     (pollInterrupt s = .none ∧ ∃ u, exec (fetchInstruction (takeStall s)).1 (fetchInstruction (takeStall s)).2 = .next u ∧
       t = completeStep s.dmaStall u)) := by
  cases hf : s.fault with
  | true => rw [step_of_fault hf] at h; cases h
  | false =>
    refine ⟨rfl, ?_⟩
    cases hp : pollInterrupt s with
    | nmi => rw [step_nmi hf hp] at h; cases h; exact .inl ⟨rfl, rfl⟩
    | irq => rw [step_irq hf hp] at h; cases h; exact .inr (.inl ⟨rfl, rfl⟩)
    | none =>
      obtain ⟨u, hu, hs⟩ := step_instr hf hp
      rw [hs] at h; cases h
      exact .inr (.inr ⟨rfl, u, hu, rfl⟩)

end Sys2Proof.Machine
end

