-- ==== Sys2Proof/Tests/Slice0.lean ====
section
/-! SUPPORT. Tests: words written out from the spec's encodings, the spec's own test vectors (spec/95_test_vectors.md), and for each
statement of Obligations.lean with hypotheses a witness that meets them. -/

namespace Sys2Proof.Tests

open Sys2Proof Sys2Proof.Machine

set_option Elab.async false

/-! ## Well-formedness, decoding and encoding -/

/-- The one check of `Instr.wf`: an `undocumented` term must hold a byte of R143. -/
theorem test_wf_refuses_a_documented_byte : (Instr.undocumented 0x69#8).wf = false := by decide

theorem test_wf_accepts_an_undocumented_byte : (Instr.undocumented 0x02#8).wf = true := by decide

/-- Whether the bytes decode to the instruction, with nothing left, and it encodes to them. -/
def decodesTo (p : List Byte × Instr) : Bool :=
  match decode p.1 with
  | .ok (i, []) => decide (i = p.2) && decide (encode p.2 = p.1)
  | _ => false

/-- 30_encoding.md, the opcode map of R141: loads; the operand low byte is 0x34. -/
theorem test_decode_loads :
    [([0xA0#8, 0x34#8], .ldyImm 0x34#8), ([0xA1#8, 0x34#8], .ldaIzx 0x34#8), ([0xA2#8, 0x34#8], .ldxImm 0x34#8),
    ([0xA4#8, 0x34#8], .ldyZp 0x34#8), ([0xA5#8, 0x34#8], .ldaZp 0x34#8), ([0xA6#8, 0x34#8], .ldxZp 0x34#8),
    ([0xA9#8, 0x34#8], .ldaImm 0x34#8), ([0xAC#8, 0x34#8, 0x12#8], .ldyAbs 0x1234#16), ([0xAD#8, 0x34#8, 0x12#8], .ldaAbs 0x1234#16),
    ([0xAE#8, 0x34#8, 0x12#8], .ldxAbs 0x1234#16), ([0xB1#8, 0x34#8], .ldaIzy 0x34#8), ([0xB4#8, 0x34#8], .ldyZpx 0x34#8),
    ([0xB5#8, 0x34#8], .ldaZpx 0x34#8), ([0xB6#8, 0x34#8], .ldxZpy 0x34#8), ([0xB9#8, 0x34#8, 0x12#8], .ldaAby 0x1234#16),
    ([0xBC#8, 0x34#8, 0x12#8], .ldyAbx 0x1234#16), ([0xBD#8, 0x34#8, 0x12#8], .ldaAbx 0x1234#16),
    ([0xBE#8, 0x34#8, 0x12#8], .ldxAby 0x1234#16)].all decodesTo = true := by decide +kernel

/-- 30_encoding.md, the opcode map of R141: stores; the operand low byte is 0x34. -/
theorem test_decode_stores :
    [([0x81#8, 0x34#8], .staIzx 0x34#8), ([0x84#8, 0x34#8], .styZp 0x34#8), ([0x85#8, 0x34#8], .staZp 0x34#8),
    ([0x86#8, 0x34#8], .stxZp 0x34#8), ([0x8C#8, 0x34#8, 0x12#8], .styAbs 0x1234#16), ([0x8D#8, 0x34#8, 0x12#8], .staAbs 0x1234#16),
    ([0x8E#8, 0x34#8, 0x12#8], .stxAbs 0x1234#16), ([0x91#8, 0x34#8], .staIzy 0x34#8), ([0x94#8, 0x34#8], .styZpx 0x34#8),
    ([0x95#8, 0x34#8], .staZpx 0x34#8), ([0x96#8, 0x34#8], .stxZpy 0x34#8), ([0x99#8, 0x34#8, 0x12#8], .staAby 0x1234#16),
    ([0x9D#8, 0x34#8, 0x12#8], .staAbx 0x1234#16)].all decodesTo = true := by decide +kernel

/-- 30_encoding.md, the opcode map of R141: transfers and the stack; the operand low byte is 0x34. -/
theorem test_decode_transfers_and_the_stack :
    [([0x08#8], .php), ([0x28#8], .plp), ([0x48#8], .pha), ([0x68#8], .pla), ([0x8A#8], .txa), ([0x98#8], .tya), ([0x9A#8], .txs),
    ([0xA8#8], .tay), ([0xAA#8], .tax), ([0xBA#8], .tsx)].all decodesTo = true := by decide +kernel

/-- 30_encoding.md, the opcode map of R141: ADC and SBC; the operand low byte is 0x34. -/
theorem test_decode_adc_and_sbc :
    [([0x61#8, 0x34#8], .adcIzx 0x34#8), ([0x65#8, 0x34#8], .adcZp 0x34#8), ([0x69#8, 0x34#8], .adcImm 0x34#8),
    ([0x6D#8, 0x34#8, 0x12#8], .adcAbs 0x1234#16), ([0x71#8, 0x34#8], .adcIzy 0x34#8), ([0x75#8, 0x34#8], .adcZpx 0x34#8),
    ([0x79#8, 0x34#8, 0x12#8], .adcAby 0x1234#16), ([0x7D#8, 0x34#8, 0x12#8], .adcAbx 0x1234#16), ([0xE1#8, 0x34#8], .sbcIzx 0x34#8),
    ([0xE5#8, 0x34#8], .sbcZp 0x34#8), ([0xE9#8, 0x34#8], .sbcImm 0x34#8), ([0xED#8, 0x34#8, 0x12#8], .sbcAbs 0x1234#16),
    ([0xF1#8, 0x34#8], .sbcIzy 0x34#8), ([0xF5#8, 0x34#8], .sbcZpx 0x34#8), ([0xF9#8, 0x34#8, 0x12#8], .sbcAby 0x1234#16),
    ([0xFD#8, 0x34#8, 0x12#8], .sbcAbx 0x1234#16)].all decodesTo = true := by decide +kernel

/-- 30_encoding.md, the opcode map of R141: compares; the operand low byte is 0x34. -/
theorem test_decode_compares :
    [([0xC0#8, 0x34#8], .cpyImm 0x34#8), ([0xC1#8, 0x34#8], .cmpIzx 0x34#8), ([0xC4#8, 0x34#8], .cpyZp 0x34#8),
    ([0xC5#8, 0x34#8], .cmpZp 0x34#8), ([0xC9#8, 0x34#8], .cmpImm 0x34#8), ([0xCC#8, 0x34#8, 0x12#8], .cpyAbs 0x1234#16),
    ([0xCD#8, 0x34#8, 0x12#8], .cmpAbs 0x1234#16), ([0xD1#8, 0x34#8], .cmpIzy 0x34#8), ([0xD5#8, 0x34#8], .cmpZpx 0x34#8),
    ([0xD9#8, 0x34#8, 0x12#8], .cmpAby 0x1234#16), ([0xDD#8, 0x34#8, 0x12#8], .cmpAbx 0x1234#16), ([0xE0#8, 0x34#8], .cpxImm 0x34#8),
    ([0xE4#8, 0x34#8], .cpxZp 0x34#8), ([0xEC#8, 0x34#8, 0x12#8], .cpxAbs 0x1234#16)].all decodesTo = true := by decide +kernel

/-- 30_encoding.md, the opcode map of R141: increments and decrements; the operand low byte is 0x34. -/
theorem test_decode_increments_and_decrements :
    [([0x88#8], .dey), ([0xC6#8, 0x34#8], .decZp 0x34#8), ([0xC8#8], .iny), ([0xCA#8], .dex),
    ([0xCE#8, 0x34#8, 0x12#8], .decAbs 0x1234#16), ([0xD6#8, 0x34#8], .decZpx 0x34#8), ([0xDE#8, 0x34#8, 0x12#8], .decAbx 0x1234#16),
    ([0xE6#8, 0x34#8], .incZp 0x34#8), ([0xE8#8], .inx), ([0xEE#8, 0x34#8, 0x12#8], .incAbs 0x1234#16),
    ([0xF6#8, 0x34#8], .incZpx 0x34#8), ([0xFE#8, 0x34#8, 0x12#8], .incAbx 0x1234#16)].all decodesTo = true := by decide +kernel

/-- 30_encoding.md, the opcode map of R141: logic and BIT; the operand low byte is 0x34. -/
theorem test_decode_logic_and_bit :
    [([0x01#8, 0x34#8], .oraIzx 0x34#8), ([0x05#8, 0x34#8], .oraZp 0x34#8), ([0x09#8, 0x34#8], .oraImm 0x34#8),
    ([0x0D#8, 0x34#8, 0x12#8], .oraAbs 0x1234#16), ([0x11#8, 0x34#8], .oraIzy 0x34#8), ([0x15#8, 0x34#8], .oraZpx 0x34#8),
    ([0x19#8, 0x34#8, 0x12#8], .oraAby 0x1234#16), ([0x1D#8, 0x34#8, 0x12#8], .oraAbx 0x1234#16), ([0x21#8, 0x34#8], .andIzx 0x34#8),
    ([0x24#8, 0x34#8], .bitZp 0x34#8), ([0x25#8, 0x34#8], .andZp 0x34#8), ([0x29#8, 0x34#8], .andImm 0x34#8),
    ([0x2C#8, 0x34#8, 0x12#8], .bitAbs 0x1234#16), ([0x2D#8, 0x34#8, 0x12#8], .andAbs 0x1234#16), ([0x31#8, 0x34#8], .andIzy 0x34#8),
    ([0x35#8, 0x34#8], .andZpx 0x34#8), ([0x39#8, 0x34#8, 0x12#8], .andAby 0x1234#16), ([0x3D#8, 0x34#8, 0x12#8], .andAbx 0x1234#16),
    ([0x41#8, 0x34#8], .eorIzx 0x34#8), ([0x45#8, 0x34#8], .eorZp 0x34#8), ([0x49#8, 0x34#8], .eorImm 0x34#8),
    ([0x4D#8, 0x34#8, 0x12#8], .eorAbs 0x1234#16), ([0x51#8, 0x34#8], .eorIzy 0x34#8), ([0x55#8, 0x34#8], .eorZpx 0x34#8),
    ([0x59#8, 0x34#8, 0x12#8], .eorAby 0x1234#16), ([0x5D#8, 0x34#8, 0x12#8], .eorAbx 0x1234#16)].all decodesTo = true := by decide +kernel

/-- 30_encoding.md, the opcode map of R141: shifts and rotates; the operand low byte is 0x34. -/
theorem test_decode_shifts_and_rotates :
    [([0x06#8, 0x34#8], .aslZp 0x34#8), ([0x0A#8], .aslAcc), ([0x0E#8, 0x34#8, 0x12#8], .aslAbs 0x1234#16),
    ([0x16#8, 0x34#8], .aslZpx 0x34#8), ([0x1E#8, 0x34#8, 0x12#8], .aslAbx 0x1234#16), ([0x26#8, 0x34#8], .rolZp 0x34#8),
    ([0x2A#8], .rolAcc), ([0x2E#8, 0x34#8, 0x12#8], .rolAbs 0x1234#16), ([0x36#8, 0x34#8], .rolZpx 0x34#8),
    ([0x3E#8, 0x34#8, 0x12#8], .rolAbx 0x1234#16), ([0x46#8, 0x34#8], .lsrZp 0x34#8), ([0x4A#8], .lsrAcc),
    ([0x4E#8, 0x34#8, 0x12#8], .lsrAbs 0x1234#16), ([0x56#8, 0x34#8], .lsrZpx 0x34#8), ([0x5E#8, 0x34#8, 0x12#8], .lsrAbx 0x1234#16),
    ([0x66#8, 0x34#8], .rorZp 0x34#8), ([0x6A#8], .rorAcc), ([0x6E#8, 0x34#8, 0x12#8], .rorAbs 0x1234#16),
    ([0x76#8, 0x34#8], .rorZpx 0x34#8), ([0x7E#8, 0x34#8, 0x12#8], .rorAbx 0x1234#16)].all decodesTo = true := by decide +kernel

/-- 30_encoding.md, the opcode map of R141: control flow; the operand low byte is 0x34. -/
theorem test_decode_control_flow :
    [([0x00#8], .brk), ([0x10#8, 0x34#8], .bpl 0x34#8), ([0x20#8, 0x34#8, 0x12#8], .jsr 0x1234#16), ([0x30#8, 0x34#8], .bmi 0x34#8),
    ([0x40#8], .rti), ([0x4C#8, 0x34#8, 0x12#8], .jmpAbs 0x1234#16), ([0x50#8, 0x34#8], .bvc 0x34#8), ([0x60#8], .rts),
    ([0x6C#8, 0x34#8, 0x12#8], .jmpInd 0x1234#16), ([0x70#8, 0x34#8], .bvs 0x34#8), ([0x90#8, 0x34#8], .bcc 0x34#8),
    ([0xB0#8, 0x34#8], .bcs 0x34#8), ([0xD0#8, 0x34#8], .bne 0x34#8), ([0xF0#8, 0x34#8], .beq 0x34#8)].all decodesTo = true := by decide +kernel

/-- 30_encoding.md, the opcode map of R141: flags and NOP; the operand low byte is 0x34. -/
theorem test_decode_flags_and_nop :
    [([0x18#8], .clc), ([0x38#8], .sec), ([0x58#8], .cli), ([0x78#8], .sei), ([0xB8#8], .clv), ([0xD8#8], .cld), ([0xEA#8], .nop),
    ([0xF8#8], .sed)].all decodesTo = true := by decide +kernel

/-- R143: the 105 bytes of the rule, each with two bytes after it that it does not take. -/
theorem test_decode_undocumented : undocumentedBytes.all (fun op =>
    match decode [op, 0x34#8, 0x12#8] with
    | .ok (i, rest) => decide (i = .undocumented op) && decide (rest = [0x34#8, 0x12#8])
    | _ => false) = true := by decide +kernel

/-- Too few bytes are rejected by name. -/
theorem test_decode_truncated : (match decode [0xAD#8, 0x34#8] with | .ok _ => false | .error _ => true) = true := by decide

/-- The table numbers the first byte lowest; an operand the table gives no bits reads as zeros. -/
theorem test_decode_table_word : decodeTableWord 8 0xBD = some (.ldaAbx 0x0000#16) ∧ decodeTableWord 8 0x00 = some .brk ∧
    decodeTableWord 24 0x1234AD = some (.ldaAbs 0x1234#16) := by decide +kernel

/-! ## One step of the machine on a placed instruction -/

/-- A, X, Y, S, P, PC and the cost `rem` holds. -/
def regs (s : State) : List Nat := [s.a.toNat, s.x.toNat, s.y.toNat, s.sp.toNat, s.p.toNat, s.pc.toNat, s.rem]

/-- The state an outcome ends in; a stop would give the state after reset. -/
def stateOf (r : StepResult) : State := match r with | .next t => t | _ => State.reset

/-- The fault or the refusal an outcome is. -/
def faultOf (r : StepResult) : Option Fault := match r with | .fault f => some f | _ => none

def refusalOf (r : StepResult) : Option Refusal := match r with | .refused f => some f | _ => none

/-- The next step after reset runs the placed instruction: LDA #$00, BRK, and an undocumented byte. -/
theorem test_with_fetch_word :
    (regs (stateOf (step (State.reset.withFetchWord 8 0xA9)))).take 6 = [0x00, 0x00, 0x00, 0xFD, 0x26, 0x0002] ∧
    (regs (stateOf (step (State.reset.withFetchWord 8 0x00)))).take 6 = [0x00, 0x00, 0x00, 0xFA, 0x24, 0x0000] ∧
    (stateOf (step (State.reset.withFetchWord 8 0x02))).fault = true := by decide +kernel

/-! ## The single-instruction vectors (spec/95_test_vectors.md 2.1) -/

/-- The default state of the vectors. -/
def start : State := { State.reset with pc := 0x8000#16 }

/-- Bytes placed at CPU addresses, in RAM or in PRG. -/
def poke (cells : List (Nat × Nat)) (s : State) : State :=
  cells.foldl (fun u c => placeByte (BitVec.ofNat 16 c.1) (BitVec.ofNat 8 c.2) u) s

/-- The registers, the cost and some bytes of RAM after the instruction the bytes encode, run with PC past it. -/
def observe (bytes : List Byte) (cells : List Nat) (s : State) : List Nat :=
  match decode bytes with
  | .ok (i, _) =>
    let t := stateOf (exec i { s with pc := s.pc + BitVec.ofNat 16 bytes.length })
    regs t ++ cells.map (fun a => (t.ram.read a).toNat)
  | _ => []

/-- V6, `LDA $02F0,X`. -/
theorem test_lda_absolute_x_crossing :
    observe [0xBD#8, 0xF0#8, 0x02#8] [] (poke [(0x0300, 0x22)] { start with x := 0x10#8 }) =
    [0x22, 0x10, 0x00, 0xFD, 0x24, 0x8003, 5] := by decide +kernel

/-- V11, `LDA ($FF),Y`. -/
theorem test_lda_indirect_y_pointer_wraps :
    observe [0xB1#8, 0xFF#8] [] (poke [(0x0000, 0x03), (0x00FF, 0x40), (0x0100, 0x06), (0x0340, 0x77)] { start with y := 0x00#8 }) =
    [0x77, 0x00, 0x00, 0xFD, 0x24, 0x8002, 5] := by decide +kernel

/-- V12, `LDX $F0,Y`. -/
theorem test_ldx_zero_page_y_wraps :
    observe [0xB6#8, 0xF0#8] [] (poke [(0x0010, 0xEE)] { start with y := 0x20#8 }) =
    [0x00, 0xEE, 0x20, 0xFD, 0xA4, 0x8002, 4] := by decide +kernel

/-- V13, `LDX $02C0,Y`. -/
theorem test_ldx_absolute_y_zero :
    observe [0xBE#8, 0xC0#8, 0x02#8] [] (poke [(0x0300, 0x00)] { start with x := 0x09#8, y := 0x40#8 }) =
    [0x00, 0x00, 0x40, 0xFD, 0x26, 0x8003, 5] := by decide +kernel

/-- V14, `LDY $0280,X`. -/
theorem test_ldy_absolute_x_no_crossing :
    observe [0xBC#8, 0x80#8, 0x02#8] [] (poke [(0x02FF, 0x80)] { start with x := 0x7F#8 }) =
    [0x00, 0x7F, 0x80, 0xFD, 0xA4, 0x8003, 4] := by decide +kernel

/-- V17, `STA ($10),Y`. -/
theorem test_sta_indirect_y_no_penalty :
    observe [0x91#8, 0x10#8] [0x0300] (poke [(0x0010, 0x01), (0x0011, 0x02)] { start with a := 0x42#8, y := 0xFF#8 }) =
    [0x42, 0x00, 0xFF, 0xFD, 0x24, 0x8002, 6, 0x42] := by decide +kernel

/-- V18, `STA ($20,X)`. -/
theorem test_sta_indirect_x :
    observe [0x81#8, 0x20#8] [0x0300] (poke [(0x0024, 0x00), (0x0025, 0x03)] { start with a := 0x99#8, x := 0x04#8 }) =
    [0x99, 0x04, 0x00, 0xFD, 0x24, 0x8002, 6, 0x99] := by decide +kernel

/-- V21, `STX $F0,Y`. -/
theorem test_stx_zero_page_y_wraps :
    observe [0x96#8, 0xF0#8] [0x0001] { start with x := 0x12#8, y := 0x11#8 } =
    [0x00, 0x12, 0x11, 0xFD, 0x24, 0x8002, 4, 0x12] := by decide +kernel

/-- V22, `STY $F0,X`. -/
theorem test_sty_zero_page_x_wraps :
    observe [0x94#8, 0xF0#8] [0x0000] { start with x := 0x10#8, y := 0x13#8 } =
    [0x00, 0x10, 0x13, 0xFD, 0x24, 0x8002, 4, 0x13] := by decide +kernel

/-- V23, `TAX`. -/
theorem test_tax_zero :
    observe [0xAA#8] [] { start with a := 0x00#8, x := 0x55#8 } =
    [0x00, 0x00, 0x00, 0xFD, 0x26, 0x8001, 2] := by decide +kernel

/-- V24, `TAY`. -/
theorem test_tay_negative :
    observe [0xA8#8] [] { start with a := 0xF0#8 } =
    [0xF0, 0x00, 0xF0, 0xFD, 0xA4, 0x8001, 2] := by decide +kernel

/-- V25, `TXA`. -/
theorem test_txa_clears_negative :
    observe [0x8A#8] [] { start with a := 0x80#8, x := 0x7F#8, p := 0xA4#8 } =
    [0x7F, 0x7F, 0x00, 0xFD, 0x24, 0x8001, 2] := by decide +kernel

/-- V26, `TYA`. -/
theorem test_tya_zero :
    observe [0x98#8] [] { start with a := 0x01#8, y := 0x00#8 } =
    [0x00, 0x00, 0x00, 0xFD, 0x26, 0x8001, 2] := by decide +kernel

/-- V27, `TSX`. -/
theorem test_tsx_sets_flags :
    observe [0xBA#8] [] { start with sp := 0xFD#8 } =
    [0x00, 0xFD, 0x00, 0xFD, 0xA4, 0x8001, 2] := by decide +kernel

/-- V29, `TXS`. -/
theorem test_txs_sets_no_flag :
    observe [0x9A#8] [] { start with x := 0x80#8, sp := 0xFD#8 } =
    [0x00, 0x80, 0x00, 0x80, 0x24, 0x8001, 2] := by decide +kernel

/-- V31, `PHA`. -/
theorem test_pha_wraps :
    observe [0x48#8] [0x0100] { start with a := 0xAB#8, sp := 0x00#8 } =
    [0xAB, 0x00, 0x00, 0xFF, 0x24, 0x8001, 3, 0xAB] := by decide +kernel

/-- V32, `PLA`. -/
theorem test_pla_wraps :
    observe [0x68#8] [] (poke [(0x0100, 0x80)] { start with sp := 0xFF#8 }) =
    [0x80, 0x00, 0x00, 0x00, 0xA4, 0x8001, 4] := by decide +kernel

/-- V35, `PHP`. -/
theorem test_php_pushes_break :
    observe [0x08#8] [0x01FD] { start with p := 0xE5#8 } =
    [0x00, 0x00, 0x00, 0xFC, 0xE5, 0x8001, 3, 0xF5] := by decide +kernel

/-- V36, `PLP`. -/
theorem test_plp_ignores_break :
    observe [0x28#8] [] (poke [(0x01FD, 0xFF)] { start with sp := 0xFC#8 }) =
    [0x00, 0x00, 0x00, 0xFD, 0xEF, 0x8001, 4] := by decide +kernel

/-- V37, `PLP`. -/
theorem test_plp_keeps_unused :
    observe [0x28#8] [] (poke [(0x01FD, 0x00)] { start with sp := 0xFC#8, p := 0xE7#8 }) =
    [0x00, 0x00, 0x00, 0xFD, 0x20, 0x8001, 4] := by decide +kernel

/-- V42, `ADC #$00`. -/
theorem test_adc_carry_in_overflows :
    observe [0x69#8, 0x00#8] [] { start with a := 0x7F#8, p := 0x25#8 } =
    [0x80, 0x00, 0x00, 0xFD, 0xE4, 0x8002, 2] := by decide +kernel

/-- V45, `ADC #$01`. -/
theorem test_adc_ignores_decimal :
    observe [0x69#8, 0x01#8] [] { start with a := 0x09#8, p := 0x2C#8 } =
    [0x0A, 0x00, 0x00, 0xFD, 0x2C, 0x8002, 2] := by decide +kernel

/-- V50, `SBC #$03`. -/
theorem test_sbc_borrows :
    observe [0xE9#8, 0x03#8] [] { start with a := 0x05#8, p := 0x24#8 } =
    [0x01, 0x00, 0x00, 0xFD, 0x25, 0x8002, 2] := by decide +kernel

/-- V51, `SBC #$01`. -/
theorem test_sbc_overflows :
    observe [0xE9#8, 0x01#8] [] { start with a := 0x80#8, p := 0x25#8 } =
    [0x7F, 0x00, 0x00, 0xFD, 0x65, 0x8002, 2] := by decide +kernel

/-- V55, `CMP #$41`. -/
theorem test_cmp_smaller :
    observe [0xC9#8, 0x41#8] [] { start with a := 0x40#8, p := 0x65#8 } =
    [0x40, 0x00, 0x00, 0xFD, 0xE4, 0x8002, 2] := by decide +kernel

/-- V56, `CMP #$00`. -/
theorem test_cmp_larger :
    observe [0xC9#8, 0x00#8] [] { start with a := 0x80#8 } =
    [0x80, 0x00, 0x00, 0xFD, 0xA5, 0x8002, 2] := by decide +kernel

/-- V58, `CPX $10`. -/
theorem test_cpx_memory :
    observe [0xE4#8, 0x10#8] [] (poke [(0x0010, 0x0F)] { start with x := 0x10#8 }) =
    [0x00, 0x10, 0x00, 0xFD, 0x25, 0x8002, 3] := by decide +kernel

/-- V59, `CPY #$80`. -/
theorem test_cpy_smaller :
    observe [0xC0#8, 0x80#8] [] { start with y := 0x00#8 } =
    [0x00, 0x00, 0x00, 0xFD, 0xA4, 0x8002, 2] := by decide +kernel

/-- V60, `INC $10`. -/
theorem test_inc_wraps :
    observe [0xE6#8, 0x10#8] [0x0010] (poke [(0x0010, 0xFF)] { start with p := 0x25#8 }) =
    [0x00, 0x00, 0x00, 0xFD, 0x27, 0x8002, 5, 0x00] := by decide +kernel

/-- V61, `INC $0200,X`. -/
theorem test_inc_absolute_x :
    observe [0xFE#8, 0x00#8, 0x02#8] [0x02FF] (poke [(0x02FF, 0x7F)] { start with x := 0xFF#8 }) =
    [0x00, 0xFF, 0x00, 0xFD, 0xA4, 0x8003, 7, 0x80] := by decide +kernel

/-- V62, `DEC $10`. -/
theorem test_dec_wraps :
    observe [0xC6#8, 0x10#8] [0x0010] (poke [(0x0010, 0x00)] start) =
    [0x00, 0x00, 0x00, 0xFD, 0xA4, 0x8002, 5, 0xFF] := by decide +kernel

/-- V63, `DEC $0210`. -/
theorem test_dec_to_zero :
    observe [0xCE#8, 0x10#8, 0x02#8] [0x0210] (poke [(0x0210, 0x01)] start) =
    [0x00, 0x00, 0x00, 0xFD, 0x26, 0x8003, 6, 0x00] := by decide +kernel

/-- V64, `INX`. -/
theorem test_inx_wraps :
    observe [0xE8#8] [] { start with x := 0xFF#8 } =
    [0x00, 0x00, 0x00, 0xFD, 0x26, 0x8001, 2] := by decide +kernel

/-- V65, `INY`. -/
theorem test_iny_to_negative :
    observe [0xC8#8] [] { start with y := 0x7F#8 } =
    [0x00, 0x00, 0x80, 0xFD, 0xA4, 0x8001, 2] := by decide +kernel

/-- V66, `DEX`. -/
theorem test_dex_wraps :
    observe [0xCA#8] [] { start with x := 0x00#8 } =
    [0x00, 0xFF, 0x00, 0xFD, 0xA4, 0x8001, 2] := by decide +kernel

/-- V67, `DEY`. -/
theorem test_dey_to_zero :
    observe [0x88#8] [] { start with y := 0x01#8 } =
    [0x00, 0x00, 0x00, 0xFD, 0x26, 0x8001, 2] := by decide +kernel

/-- V70, `AND #$0F`. -/
theorem test_and_zero :
    observe [0x29#8, 0x0F#8] [] { start with a := 0xF0#8 } =
    [0x00, 0x00, 0x00, 0xFD, 0x26, 0x8002, 2] := by decide +kernel

/-- V73, `ORA ($10),Y`. -/
theorem test_ora_indirect_y_crossing :
    observe [0x11#8, 0x10#8] [] (poke [(0x0010, 0xFF), (0x0011, 0x02), (0x0300, 0x80)] { start with a := 0x01#8, y := 0x01#8 }) =
    [0x81, 0x00, 0x01, 0xFD, 0xA4, 0x8002, 6] := by decide +kernel

/-- V75, `EOR #$FF`. -/
theorem test_eor_complement :
    observe [0x49#8, 0xFF#8] [] { start with a := 0x55#8 } =
    [0xAA, 0x00, 0x00, 0xFD, 0xA4, 0x8002, 2] := by decide +kernel

/-- V76, `BIT $10`. -/
theorem test_bit_copies_memory_bits :
    observe [0x24#8, 0x10#8] [] (poke [(0x0010, 0xC0)] { start with a := 0x00#8 }) =
    [0x00, 0x00, 0x00, 0xFD, 0xE6, 0x8002, 3] := by decide +kernel

/-- V77, `BIT $10`. -/
theorem test_bit_clears :
    observe [0x24#8, 0x10#8] [] (poke [(0x0010, 0x01)] { start with a := 0x01#8, p := 0xE4#8 }) =
    [0x01, 0x00, 0x00, 0xFD, 0x24, 0x8002, 3] := by decide +kernel

/-- V80, `ASL A`. -/
theorem test_asl_drops_carry_in :
    observe [0x0A#8] [] { start with a := 0x41#8, p := 0x25#8 } =
    [0x82, 0x00, 0x00, 0xFD, 0xA4, 0x8001, 2] := by decide +kernel

/-- V81, `ASL $10`. -/
theorem test_asl_memory :
    observe [0x06#8, 0x10#8] [0x0010] (poke [(0x0010, 0xC0)] start) =
    [0x00, 0x00, 0x00, 0xFD, 0xA5, 0x8002, 5, 0x80] := by decide +kernel

/-- V82, `LSR A`. -/
theorem test_lsr_carry_out :
    observe [0x4A#8] [] { start with a := 0x01#8, p := 0xA4#8 } =
    [0x00, 0x00, 0x00, 0xFD, 0x27, 0x8001, 2] := by decide +kernel

/-- V83, `LSR $0200,X`. -/
theorem test_lsr_memory :
    observe [0x5E#8, 0x00#8, 0x02#8] [0x0201] (poke [(0x0201, 0x82)] { start with x := 0x01#8 }) =
    [0x00, 0x01, 0x00, 0xFD, 0x24, 0x8003, 7, 0x41] := by decide +kernel

/-- V84, `ROL A`. -/
theorem test_rol_carry_in :
    observe [0x2A#8] [] { start with a := 0x80#8, p := 0x25#8 } =
    [0x01, 0x00, 0x00, 0xFD, 0x25, 0x8001, 2] := by decide +kernel

/-- V86, `ROL $10`. -/
theorem test_rol_memory :
    observe [0x26#8, 0x10#8] [0x0010] (poke [(0x0010, 0x80)] start) =
    [0x00, 0x00, 0x00, 0xFD, 0x27, 0x8002, 5, 0x00] := by decide +kernel

/-- V87, `ROR A`. -/
theorem test_ror_carry_in :
    observe [0x6A#8] [] { start with a := 0x01#8, p := 0x25#8 } =
    [0x80, 0x00, 0x00, 0xFD, 0xA5, 0x8001, 2] := by decide +kernel

/-- V89, `ROR $10,X`. -/
theorem test_ror_memory :
    observe [0x76#8, 0x10#8] [0x0000] (poke [(0x0000, 0x02)] { start with x := 0xF0#8, p := 0x25#8 }) =
    [0x00, 0xF0, 0x00, 0xFD, 0xA4, 0x8002, 6, 0x81] := by decide +kernel

/-- V90, `JMP $C123`. -/
theorem test_jmp_absolute :
    observe [0x4C#8, 0x23#8, 0xC1#8] [] start =
    [0x00, 0x00, 0x00, 0xFD, 0x24, 0xC123, 3] := by decide +kernel

/-- V92, `JMP ($02FF)`. -/
theorem test_jmp_indirect_page_wrap :
    observe [0x6C#8, 0xFF#8, 0x02#8] [] (poke [(0x0200, 0x92), (0x02FF, 0x34), (0x0300, 0x55)] start) =
    [0x00, 0x00, 0x00, 0xFD, 0x24, 0x9234, 5] := by decide +kernel

/-- V94, `JSR $9000`. -/
theorem test_jsr_pushes_its_last_byte :
    observe [0x20#8, 0x00#8, 0x90#8] [0x01FC, 0x01FD] { start with pc := 0x80FE#16 } =
    [0x00, 0x00, 0x00, 0xFB, 0x24, 0x9000, 6, 0x00, 0x81] := by decide +kernel

/-- V97, `RTS`. -/
theorem test_rts_stack_wraps :
    observe [0x60#8] [] (poke [(0x0100, 0x10), (0x0101, 0x90)] { start with sp := 0xFF#8 }) =
    [0x00, 0x00, 0x00, 0x01, 0x24, 0x9011, 6] := by decide +kernel

/-- V105, `BCC +127`. -/
theorem test_bcc_crossing :
    observe [0x90#8, 0x7F#8] [] { start with pc := 0x8080#16 } =
    [0x00, 0x00, 0x00, 0xFD, 0x24, 0x8101, 4] := by decide +kernel

/-- V106, `BCS -128`. -/
theorem test_bcs_back_128 :
    observe [0xB0#8, 0x80#8] [] { start with p := 0x25#8, pc := 0x8080#16 } =
    [0x00, 0x00, 0x00, 0xFD, 0x25, 0x8002, 3] := by decide +kernel

/-- V102, `BEQ -2`. -/
theorem test_beq_to_itself :
    observe [0xF0#8, 0xFE#8] [] { start with p := 0x26#8 } =
    [0x00, 0x00, 0x00, 0xFD, 0x26, 0x8000, 3] := by decide +kernel

/-- V98, `BNE +3`. -/
theorem test_bne_same_page :
    observe [0xD0#8, 0x03#8] [] { start with pc := 0x80F0#16 } =
    [0x00, 0x00, 0x00, 0xFD, 0x24, 0x80F5, 3] := by decide +kernel

/-- V101, `BNE +3`. -/
theorem test_bne_not_taken :
    observe [0xD0#8, 0x03#8] [] { start with p := 0x26#8, pc := 0x80F0#16 } =
    [0x00, 0x00, 0x00, 0xFD, 0x26, 0x80F2, 2] := by decide +kernel

/-- V107, `BMI +2`. -/
theorem test_bmi_taken :
    observe [0x30#8, 0x02#8] [] { start with p := 0xA4#8 } =
    [0x00, 0x00, 0x00, 0xFD, 0xA4, 0x8004, 3] := by decide +kernel

/-- V104, `BPL -3`. -/
theorem test_bpl_back_crossing :
    observe [0x10#8, 0xFD#8] [] { start with pc := 0x8100#16 } =
    [0x00, 0x00, 0x00, 0xFD, 0x24, 0x80FF, 4] := by decide +kernel

/-- V109, `BVC +2`. -/
theorem test_bvc_not_taken :
    observe [0x50#8, 0x02#8] [] { start with p := 0x64#8 } =
    [0x00, 0x00, 0x00, 0xFD, 0x64, 0x8002, 2] := by decide +kernel

/-- V110, `BVS +2`. -/
theorem test_bvs_taken :
    observe [0x70#8, 0x02#8] [] { start with p := 0x64#8 } =
    [0x00, 0x00, 0x00, 0xFD, 0x64, 0x8004, 3] := by decide +kernel

/-- V116, `BRK`. -/
theorem test_brk_pushes :
    observe [0x00#8] [0x01FB, 0x01FC, 0x01FD] (poke [(0xFFFE, 0x00), (0xFFFF, 0x90)] { start with p := 0x6D#8, pc := 0x8010#16 }) =
    [0x00, 0x00, 0x00, 0xFA, 0x6D, 0x9000, 7, 0x7D, 0x12, 0x80] := by decide +kernel

/-- V117, `BRK`. -/
theorem test_brk_stack_wraps :
    observe [0x00#8] [0x0100, 0x0101, 0x01FF] (poke [(0xFFFE, 0x00), (0xFFFF, 0x90)] { start with sp := 0x01#8, p := 0x24#8, pc := 0x80FF#16 }) =
    [0x00, 0x00, 0x00, 0xFE, 0x24, 0x9000, 7, 0x01, 0x81, 0x34] := by decide +kernel

/-- V118, `RTI`. -/
theorem test_rti_restores :
    observe [0x40#8] [] (poke [(0x01FB, 0xF3), (0x01FC, 0x12), (0x01FD, 0x80)] { start with sp := 0xFA#8, p := 0x24#8 }) =
    [0x00, 0x00, 0x00, 0xFD, 0xE3, 0x8012, 6] := by decide +kernel

/-- V119, `RTI`. -/
theorem test_rti_forces_unused :
    observe [0x40#8] [] (poke [(0x01FB, 0x00), (0x01FC, 0x12), (0x01FD, 0x80)] { start with sp := 0xFA#8, p := 0xE7#8 }) =
    [0x00, 0x00, 0x00, 0xFD, 0x20, 0x8012, 6] := by decide +kernel

/-- V120, `CLC`. -/
theorem test_clc :
    observe [0x18#8] [] { start with p := 0xEF#8 } =
    [0x00, 0x00, 0x00, 0xFD, 0xEE, 0x8001, 2] := by decide +kernel

/-- V121, `SEC`. -/
theorem test_sec :
    observe [0x38#8] [] { start with p := 0x24#8 } =
    [0x00, 0x00, 0x00, 0xFD, 0x25, 0x8001, 2] := by decide +kernel

/-- V122, `CLI`. -/
theorem test_cli :
    observe [0x58#8] [] { start with p := 0x24#8 } =
    [0x00, 0x00, 0x00, 0xFD, 0x20, 0x8001, 2] := by decide +kernel

/-- V123, `SEI`. -/
theorem test_sei :
    observe [0x78#8] [] { start with p := 0x20#8 } =
    [0x00, 0x00, 0x00, 0xFD, 0x24, 0x8001, 2] := by decide +kernel

/-- V124, `CLV`. -/
theorem test_clv :
    observe [0xB8#8] [] { start with p := 0x64#8 } =
    [0x00, 0x00, 0x00, 0xFD, 0x24, 0x8001, 2] := by decide +kernel

/-- V125, `CLD`. -/
theorem test_cld :
    observe [0xD8#8] [] { start with p := 0x2C#8 } =
    [0x00, 0x00, 0x00, 0xFD, 0x24, 0x8001, 2] := by decide +kernel

/-- V126, `SED`. -/
theorem test_sed :
    observe [0xF8#8] [] { start with p := 0x24#8 } =
    [0x00, 0x00, 0x00, 0xFD, 0x2C, 0x8001, 2] := by decide +kernel

/-- V127, `NOP`. -/
theorem test_nop :
    observe [0xEA#8] [] { start with a := 0x01#8, x := 0x02#8, y := 0x03#8, p := 0xE5#8 } =
    [0x01, 0x02, 0x03, 0xFD, 0xE5, 0x8001, 2] := by decide +kernel

/-! ## Steps, interrupts, devices (spec/95_test_vectors.md 2.2 to 2.7) -/

/-- W1: both requests pending, the NMI is taken: the stack, S, P, PC, the requests and CYC. -/
theorem test_nmi_entry :
    (let t := stateOf (step (poke [(0x8123, 0xEA), (0xFFFA, 0x00), (0xFFFB, 0x90)]
      { start with pc := 0x8123#16, p := 0xE5#8, nmiRequest := true, irqRequest := true }))
    regs t ++ [t.cyc, (t.ram.read 0x1FD).toNat, (t.ram.read 0x1FC).toNat, (t.ram.read 0x1FB).toNat] =
      [0x00, 0x00, 0x00, 0xFA, 0xE5, 0x9000, 0, 14, 0x81, 0x23, 0xE5] ∧ t.nmiRequest = false ∧ t.irqRequest = true) := by decide +kernel

/-- W2: a masked request is not taken. -/
theorem test_irq_masked :
    (let t := stateOf (step (poke [(0x8000, 0xEA)] { start with irqRequest := true }))
    t.pc = 0x8001#16 ∧ t.cyc = 9 ∧ t.irqRequest = true) := by decide +kernel

/-- W3, first step: the request is taken and stays. -/
theorem test_irq_entry :
    (let t := stateOf (step (poke [(0x8000, 0xEA), (0xFFFE, 0x00), (0xFFFF, 0xA0)] { start with p := 0x21#8, irqRequest := true }))
    regs t ++ [(t.ram.read 0x1FD).toNat, (t.ram.read 0x1FC).toNat, (t.ram.read 0x1FB).toNat] =
      [0x00, 0x00, 0x00, 0xFA, 0x25, 0xA000, 0, 0x80, 0x00, 0x21] ∧ t.irqRequest = true) := by decide +kernel

/-- W5: FatalDecodeError: no time passes, the stall is put back, and the next step is the fault. -/
theorem test_fatal_decode_error :
    (let t := stateOf (step (poke [(0x8000, 0x02)] { start with a := 0x01#8, cyc := 100, dmaStall := 513 }))
    t.fault = true ∧ t.pc = 0x8000#16 ∧ t.a = 0x01#8 ∧ t.cyc = 100 ∧ t.dmaStall = 513 ∧ t.faultOpcode = 0x02#8 ∧ t.faultPc = 0x8000#16 ∧
      faultOf (step t) = some (.fatalDecodeError 0x02#8 0x8000#16)) := by decide +kernel

/-- W6, the copy: OAM[10] from 0200, OAM[FF] from 02EF, OAM[00] from 02F0, OAM[0F] from 02FF. -/
theorem test_sprite_dma :
    (let s := poke [(0x0200, 0xFF), (0x02EF, 0x10), (0x02F0, 0x0F), (0x02FF, 0x01)] start
    let t := memWrite 0x4014#16 0x02#8 { s with ppu := { s.ppu with oamAddr := 0x10#8 } }
    t.ppu.oam = [(0x00, 0x0F#8), (0x0F, 0x01#8), (0x10, 0xFF#8), (0xFF, 0x10#8)] ∧ t.ppu.oamAddr = 0x10#8 ∧ t.dmaStall = 513) := by
  decide +kernel

/-- W8: a mirror of RAM, the absent second pad, the sound status, an undecoded address, the status register. -/
theorem test_undecoded_reads :
    (let s := poke [(0x0000, 0x77)] start
    [0x1800#16, 0x4017#16, 0x4015#16, 0x5000#16, 0x2002#16].map (fun a => peek a s) = [0x77#8, 0x00#8, 0x00#8, 0x00#8, 0x00#8]) := by
  decide +kernel

/-- A register write, `wrn <- d` of the vectors. -/
def wr (n : Nat) (d : Byte) (s : State) : State := memWrite (BitVec.ofNat 16 (0x2000 + n)) d s

/-- The vectors' state with vertical mirroring. -/
def vertical : State := { start with cart := { start.cart with mirroring := .vertical } }

/-- X1: two data writes, and the delayed read of the first. -/
theorem test_data_port :
    (let s := wr 7 0xCD#8 (wr 7 0xAB#8 (wr 6 0x08#8 (wr 6 0x21#8 vertical)))
    let r := memRead 0x2007#16 (wr 6 0x08#8 (wr 6 0x21#8 s))
    s.ppu.vram = [(0x108, 0xAB#8), (0x109, 0xCD#8)] ∧ s.ppu.v = 0x210A#15 ∧ r.1 = 0x00#8 ∧ (memRead 0x2007#16 r.2).1 = 0xAB#8) := by
  decide +kernel

/-- X3, X4: address 3F10 is palette cell 00, six bits wide, read at once. -/
theorem test_palette :
    (let s := wr 7 0xFF#8 (wr 6 0x10#8 (wr 6 0x3F#8 vertical))
    let r := memRead 0x2007#16 (wr 6 0x00#8 (wr 6 0x3F#8 s))
    s.ppu.pal = [(0x00, 0x3F#8)] ∧ s.ppu.v = 0x3F11#15 ∧ r.1 = 0x3F#8 ∧ r.2.ppu.v = 0x3F01#15) := by decide +kernel

/-- X5: scroll and control writes. -/
theorem test_scroll :
    (let s1 := wr 5 0x7D#8 vertical
    let s2 := wr 5 0x5E#8 s1
    let s3 := wr 0 0x03#8 s2
    (s1.ppu.t, s1.ppu.fineX, s1.ppu.w) = (0x000F#15, 5#3, true) ∧ (s2.ppu.t, s2.ppu.w) = (0x616F#15, false) ∧
      s3.ppu.t = 0x6D6F#15 ∧ s3.ppu.v = 0#15) := by decide +kernel

/-- X7: the status register reads E0, then 60. -/
theorem test_status :
    (let s := { vertical with ppu := { vertical.ppu with vblank := true, spriteZeroHit := true, spriteOverflow := true, w := true } }
    let r := memRead 0x2002#16 s
    r.1 = 0xE0#8 ∧ r.2.ppu.w = false ∧ (memRead 0x2002#16 r.2).1 = 0x60#8) := by decide +kernel

/-- X8: the request is made by 0 to 1 of CTRL.NMI while V is set, and not by 1 to 1. -/
theorem test_ctrl_raises_nmi :
    (let s := { vertical with ppu := { vertical.ppu with vblank := true } }
    (wr 0 0x80#8 s).nmiRequest = true ∧ (wr 0 0x80#8 { wr 0 0x80#8 s with nmiRequest := false }).nmiRequest = false) := by decide +kernel

/-- X9: the sprite table's port wraps; a read does not advance. -/
theorem test_oam_port :
    (let s := wr 4 0x33#8 (wr 4 0x22#8 (wr 4 0x11#8 (wr 3 0xFE#8 vertical)))
    let r := memRead 0x2004#16 (wr 3 0xFF#8 s)
    s.ppu.oam = [(0x00, 0x33#8), (0xFE, 0x11#8), (0xFF, 0x22#8)] ∧ s.ppu.oamAddr = 0x01#8 ∧ r.1 = 0x22#8 ∧ r.2.ppu.oamAddr = 0xFF#8) := by
  decide +kernel

/-- The folding table of 2.4: nametables, then the palette. -/
theorem test_address_folding :
    [0x2000#14, 0x2400#14, 0x2800#14, 0x2C00#14, 0x23FF#14, 0x2FFF#14, 0x3000#14, 0x3EFF#14].map (ntIndex .horizontal) =
      [0x000, 0x000, 0x400, 0x400, 0x3FF, 0x7FF, 0x000, 0x6FF] ∧
    [0x2000#14, 0x2400#14, 0x2800#14, 0x2C00#14, 0x23FF#14, 0x2FFF#14, 0x3000#14, 0x3EFF#14].map (ntIndex .vertical) =
      [0x000, 0x400, 0x000, 0x400, 0x3FF, 0x7FF, 0x000, 0x6FF] ∧
    [0x3F00#14, 0x3F10#14, 0x3F04#14, 0x3F14#14, 0x3F18#14, 0x3F1C#14, 0x3F11#14, 0x3F20#14, 0x3F30#14, 0x3FFF#14].map palIndex =
      [0x00, 0x00, 0x04, 0x04, 0x08, 0x0C, 0x11, 0x00, 0x00, 0x1F] := by decide +kernel

/-- T2, T3: the dots of the vertical blank and of the frame start. -/
theorem test_frame_events :
    (let g := { start.ppu with ctrl := 0x80#8 }
    let h := ppuDot [] .vertical { g with scanline := 241, dot := 1 }
    (h.vblank, h.frameCount, h.dot) = (true, 1, 2) ∧ dotRequestsNmi { g with scanline := 241, dot := 1 } = true ∧
      (ppuDot [] .vertical { h with scanline := 261, dot := 1 }).vblank = false ∧
      (ppuDot [] .vertical { g with scanline := 261, dot := 340 }).scanline = 0) := by decide +kernel

/-- Y8: nine sprites in range on scanline 16: eight are kept, and O is set. -/
theorem test_sprite_overflow :
    (let oam := (List.range 9).foldl (fun m n =>
      (((m.write (4 * n) 0x10#8).write (4 * n + 1) 0x01#8).write (4 * n + 2) 0x00#8).write (4 * n + 3) (BitVec.ofNat 8 (8 * n)))
      (Memory.fill 256 0xFF#8)
    let h := spritePart [(0x10, 0xFF#8)] { start.ppu with oam := oam, mask := 0x18#8, scanline := 16, dot := 257 }
    h.sprites.map (fun e => (e.x.toNat, e.lo, e.isZero)) = [(0, 0xFF#8, true), (8, 0xFF#8, false), (16, 0xFF#8, false),
      (24, 0xFF#8, false), (32, 0xFF#8, false), (40, 0xFF#8, false), (48, 0xFF#8, false), (56, 0xFF#8, false)] ∧
      h.spriteOverflow = true) := by decide +kernel

/-- Y3, one pixel: sprite 0 in front of an opaque background pixel at column 4: colour 16, and S. -/
theorem test_sprite_zero_hit :
    (let g := { start.ppu with
      mask := 0x1E#8, pal := [(0x00, 0x0F#8), (0x01, 0x30#8), (0x11, 0x16#8)], bgLo := 0x8000#16, scanline := 1, dot := 5
      sprites := [{ x := 4#8, attr := 0x00#8, lo := 0xFF#8, hi := 0x00#8, isZero := true }] }
    let h := pixelPart g
    let behind := pixelPart { g with sprites := [{ x := 4#8, attr := 0x20#8, lo := 0xFF#8, hi := 0x00#8, isZero := true }] }
    fbRead h.fb 1 4 = 0x16#8 ∧ h.spriteZeroHit = true ∧ fbRead behind.fb 1 4 = 0x30#8 ∧ behind.spriteZeroHit = true) := by decide +kernel

/-- M1: a warm reset of a machine whose reset vector holds C000. -/
theorem test_warm_reset :
    (let t := resetSequence (poke [(0xC000, 0xA2), (0xC001, 0x05), (0xFFFD, 0xC0)] { start with a := 0x09#8, sp := 0x00#8, p := 0xFF#8, cyc := 999 })
    regs t = [0x00, 0x00, 0x00, 0xFD, 0x24, 0xC000, 0] ∧ t.cyc = 7 ∧ (t.ppu.scanline, t.ppu.dot) = (0, 21)) := by decide +kernel

/-- M2: a 16 KiB PRG appears twice. -/
theorem test_small_prg :
    (let s := { start with cart := { start.cart with prgSize := .k16, prg := [(0x0000, 0xA2#8), (0x3FFD, 0xC0#8)] } }
    [0x8000#16, 0xC000#16, 0xBFFD#16, 0xFFFD#16].map (fun a => peek a s) = [0xA2#8, 0xA2#8, 0xC0#8, 0xC0#8]) := by decide +kernel

/-- M3: another mapper, and banks of another length, are refused by name. -/
theorem test_load_refusals :
    (let image : CartridgeImage := { mapperId := 1, prg := [], chr := none, chrIsRam := false, mirroring := some .vertical }
    refusalOf (loadCartridge defaultParams image) = some (.unsupportedMapper 1) ∧
      refusalOf (loadCartridge defaultParams { image with mapperId := 0 }) = some (.badPrgLength 0)) := by decide +kernel

/-- Z1: buttons 09, captured; the reads return the captured buttons, then 1. -/
theorem test_input_latch :
    (let s := memWrite 0x4016#16 0x00#8 (memWrite 0x4016#16 0x01#8 { start with buttons := 0x09#8 })
    let held := { s with buttons := 0xFF#8 }
    (List.range 10).map (fun n => (memRead 0x4016#16 (Nat.iterate (fun u => (memRead 0x4016#16 u).2) n held)).1.toNat) =
      [1, 0, 0, 1, 0, 0, 0, 0, 1, 1]) := by decide +kernel

/-- The canonical form: writing what an unlisted cell reads as removes the entry. -/
theorem test_memory_canonical :
    (let m := Memory.write (Memory.write (Memory.write [] 7 0x01#8) 3 0x02#8) 7 0x00#8
    m = [(3, 0x02#8)] ∧ m.wf = true ∧ State.reset.ram.wf = true) := by decide

/-! ## Witnesses: for each statement with hypotheses, a state and operands that meet them -/

/-- A picture-register write or read reaches its register at both ends of the window. -/
theorem test_witness_pic_registers :
    [0x2000#16, 0x2001#16, 0x2002#16, 0x2003#16, 0x2004#16, 0x2005#16, 0x2006#16, 0x2007#16].map picRegister =
      [some 0, some 1, some 2, some 3, some 4, some 5, some 6, some 7] ∧
    [0x3FF8#16, 0x3FF9#16, 0x3FFA#16, 0x3FFB#16, 0x3FFC#16, 0x3FFD#16, 0x3FFE#16, 0x3FFF#16].map picRegister =
      [some 0, some 1, some 2, some 3, some 4, some 5, some 6, some 7] ∧ picRegister 0x1FFF#16 = none ∧ picRegister 0x4000#16 = none := by
  decide +kernel

theorem test_witness_opcodeTableRows : (0xA9#8, 2, 2, Form.lda (.imm 0x12#8)) ∈ loadRows 0x12#8 0x34#8 := List.mem_cons_self

theorem test_witness_undocumentedBytes : 0x02#8 ∈ undocumentedBytes ∧ assemble 0xFF#8 0x34#8 0x12#8 = .undocumented 0xFF#8 := by
  decide +kernel

theorem test_witness_decodeOfEncode : (Instr.jmpInd 0x02FF#16).wf = true ∧ (Instr.undocumented 0xFF#8).wf = true := by decide

theorem test_witness_encodeOfDecode : decode [0x6C#8, 0xFF#8, 0x02#8, 0xEA#8] = .ok (.jmpInd 0x02FF#16, [0xEA#8]) := rfl

theorem test_witness_workMemoryIsMirrored :
    (0x1FFF#16).toNat ≤ 0x1FFF ∧ (0x07FF#16).toNat ≤ 0x1FFF ∧ 0x07FF#16 &&& 0x07FF#16 = 0x1FFF#16 &&& 0x07FF#16 ∧
      0x0000#16 &&& 0x07FF#16 ≠ 0x1FFF#16 &&& 0x07FF#16 := by decide

/-- No side effect at 0x2000 and 0xFFFF; both ports strobed, with a bit left to shift (index 7), and with none (index 8). -/
theorem test_witness_readSideEffectTable :
    readHasSideEffect 0x2000#16 start = false ∧ readHasSideEffect 0xFFFF#16 start = false ∧ readHasSideEffect 0x4017#16 start = false ∧
    (let s := { start with params := { start.params with pad2Present := true }, latch := { start.latch with idx := 7, idx2 := 7 } }
    s.latch.strobe = false ∧ s.latch.idx < 8 ∧ s.params.pad2Present = true ∧ s.latch.idx2 < 8) ∧
    (let l : Latch := { start.latch with idx := 8, idx2 := 8 }
    l.strobe = false ∧ ¬l.idx < 8 ∧ ¬l.idx2 < 8) ∧ ({ start.latch with strobe := true } : Latch).strobe = true := by decide +kernel

theorem test_witness_undecodedAccesses :
    picRegister 0x3FFE#16 ∈ [some 0, some 1, some 3, some 5, some 6] ∧ (0x4000 ≤ (0x4015#16).toNat ∧ (0x4015#16).toNat ≤ 0x4015) ∧
    (0x4018 ≤ (0x4018#16).toNat ∧ (0x7FFF#16).toNat ≤ 0x7FFF) ∧ start.params.pad2Present = false ∧ picRegister 0x2002#16 = some 2 ∧
    (0x4013#16).toNat ≤ 0x4013 ∧ 0x4017 ≤ (0x4017#16).toNat := by decide +kernel

theorem test_witness_programWindow :
    (let s := { start with cart := { start.cart with prgSize := .k16 } }
    s.cart.prgSize = .k16 ∧ 0x8000 ≤ (0xBFFF#16).toNat ∧ (0xBFFF#16).toNat ≤ 0xBFFF ∧ 0x4020 ≤ (0x4020#16).toNat ∧
      (0x7FFF#16).toNat ≤ 0x7FFF) := by decide

/-- The families of forms the result statements range over, one instruction of each. -/
theorem test_witness_results :
    (Instr.ldaImm 0x80#8).form = .lda (.imm 0x80#8) ∧ (Instr.ldxZp 0x10#8).form = .ldx (.mem (.zp 0x10#8)) ∧
    (Instr.ldyAbs 0x2002#16).form = .ldy (.mem (.abs 0x2002#16)) ∧ (Instr.staIzy 0x10#8).form = .sta (.izy 0x10#8) ∧
    (Instr.stxZpy 0xF0#8).form = .stx (.zpy 0xF0#8) ∧ (Instr.styZpx 0xF0#8).form = .sty (.zpx 0xF0#8) ∧
    (Instr.adcAbx 0x0300#16).form = .adc (.mem (.abx 0x0300#16)) ∧ (Instr.sbcImm 0x01#8).form = .sbc (.imm 0x01#8) ∧
    (Instr.cmpAby 0x0300#16).form = .cmp (.mem (.aby 0x0300#16)) ∧ (Instr.cpxZp 0x10#8).form = .cpx (.mem (.zp 0x10#8)) ∧
    (Instr.cpyImm 0x80#8).form = .cpy (.imm 0x80#8) ∧ (Instr.incAbx 0x0200#16).form = .inc (.abx 0x0200#16) ∧
    (Instr.decZp 0x10#8).form = .dec (.zp 0x10#8) ∧ (Instr.andImm 0x0F#8).form = .and (.imm 0x0F#8) ∧
    (Instr.oraIzy 0x10#8).form = .ora (.mem (.izy 0x10#8)) ∧ (Instr.eorIzx 0x10#8).form = .eor (.mem (.izx 0x10#8)) ∧
    (Instr.bitAbs 0x2002#16).form = .bit (.abs 0x2002#16) :=
  ⟨rfl, rfl, rfl, rfl, rfl, rfl, rfl, rfl, rfl, rfl, rfl, rfl, rfl, rfl, rfl, rfl, rfl⟩

/-- The shifts, on the accumulator and on memory. -/
theorem test_witness_shifts :
    Instr.aslAcc.form = .asl .acc ∧ Instr.lsrAcc.form = .lsr .acc ∧ Instr.rolAcc.form = .rol .acc ∧ Instr.rorAcc.form = .ror .acc ∧
    (Instr.aslZp 0x10#8).form = .asl (.mem (.zp 0x10#8)) ∧ (Instr.lsrAbx 0x0200#16).form = .lsr (.mem (.abx 0x0200#16)) ∧
    (Instr.rolZp 0x10#8).form = .rol (.mem (.zp 0x10#8)) ∧ (Instr.rorZpx 0x10#8).form = .ror (.mem (.zpx 0x10#8)) :=
  ⟨rfl, rfl, rfl, rfl, rfl, rfl, rfl, rfl⟩

/-- The lists of the transfer, increment and flag statements hold the instructions they name. -/
theorem test_witness_lists :
    (Instr.tsx, Reg.s, Reg.x) ∈ [(Instr.tax, Reg.a, Reg.x), (.tay, .a, .y), (.txa, .x, .a), (.tya, .y, .a), (.tsx, .s, .x)] ∧
    (Instr.dey, Reg.y, 0xFF#8) ∈ [(Instr.inx, Reg.x, 1#8), (.iny, .y, 1#8), (.dex, .x, 0xFF#8), (.dey, .y, 0xFF#8)] ∧
    (Instr.sed, Flag.d, true) ∈ [(Instr.clc, Flag.c, false), (.sec, .c, true), (.cli, .i, false), (.sei, .i, true), (.clv, .v, false),
        (.cld, .d, false), (.sed, .d, true)] := by decide +kernel

/-- Both ways of a branch: P = 24 has every flag but I and U clear, P = E7 has C, Z, V and N set. -/
theorem test_witness_branches :
    ([Flag.c, .z, .n, .v].map (fun f => getFlag f start.p)) = [false, false, false, false] ∧
    ([Flag.c, .z, .n, .v].map (fun f => getFlag f { start with p := 0xE7#8 }.p)) = [true, true, true, true] := by decide

/-- A form that stores nothing, one that stores at its effective address, and the pushing ones, each with its next state. -/
theorem test_witness_frames :
    (formStores (Instr.ldaAbs 0x2002#16).form = false ∧ ∃ t, exec (.ldaAbs 0x2002#16) start = .next t) ∧
    ((Instr.incAbs 0x0200#16).form ∈ [Form.sta (.abs 0x0200#16), .inc (.abs 0x0200#16)] ∧ ∃ t, exec (.incAbs 0x0200#16) start = .next t) ∧
    (∃ t, exec .pha start = .next t) ∧ (∃ t, exec .php start = .next t) ∧ (∃ t, exec (.jsr 0x9000#16) start = .next t) ∧
    ∃ t, exec .brk start = .next t :=
  ⟨⟨rfl, exec_next _ _⟩, ⟨by decide, exec_next _ _⟩, exec_next _ _, exec_next _ _, exec_next _ _, exec_next _ _⟩

/-- A documented instruction with a next state: the frame over the picture, the register writers and the flag writers. -/
theorem test_witness_writers : (∀ op, Instr.staAbs 0x2000#16 ≠ .undocumented op) ∧ ∃ t, exec (.staAbs 0x2000#16) start = .next t :=
  ⟨nofun, exec_next _ _⟩

/-- Code at 0x8000 that reads without side effect, with no request pending. -/
def atCode : State := poke [(0x8000, 0xBD), (0x8001, 0xF0), (0x8002, 0x02)] start

theorem test_witness_stepRunsDecodedInstruction :
    atCode.fault = false ∧ atCode.nmiRequest = false ∧ atCode.irqRequest = false ∧
    decode [peek atCode.pc atCode, peek (atCode.pc + 1#16) atCode, peek (atCode.pc + 2#16) atCode] = .ok (.ldaAbx 0x02F0#16, []) ∧
    ∀ k < (encode (.ldaAbx 0x02F0#16)).length, readHasSideEffect (atCode.pc + BitVec.ofNat 16 k) atCode = false :=
  ⟨rfl, rfl, rfl, rfl, by decide +kernel⟩

/-- The same with a masked request pending: P.I is 1. -/
theorem test_witness_maskedRequest : ({ atCode with irqRequest := true } : State).fault = false ∧ getFlag .i atCode.p = true := by
  decide +kernel

theorem test_witness_stepFetchesThroughTheBus :
    decode [(fetch8 atCode).1, (fetch8 (fetch8 atCode).2).1, (fetch8 (fetch8 (fetch8 atCode).2).2).1] = .ok (.ldaAbx 0x02F0#16, []) := rfl

theorem test_witness_interrupts :
    (let s := { atCode with nmiRequest := true }
    s.fault = false ∧ s.nmiRequest = true) ∧
    (let s := { atCode with irqRequest := true, p := 0x20#8 }
    s.fault = false ∧ s.nmiRequest = false ∧ s.irqRequest = true ∧ getFlag .i s.p = false) := by decide +kernel

theorem test_witness_fatalDecodeError :
    (let s := poke [(0x8000, 0x02)] start
    s.fault = false ∧ s.nmiRequest = false ∧ s.irqRequest = false ∧ (memRead s.pc s).1 ∈ undocumentedBytes) ∧
    ({ start with fault := true } : State).fault = true := by decide +kernel

/-- A step that charges an instruction, and the two that charge an interrupt entry. -/
theorem test_witness_stepCharges :
    (pollInterrupt atCode = .none ∧ (stateOf (step atCode)).fault = false) ∧
    pollInterrupt { atCode with nmiRequest := true } ≠ .none ∧ (stateOf (step { atCode with nmiRequest := true })).fault = false ∧
    pollInterrupt { atCode with irqRequest := true, p := 0x20#8 } ≠ .none ∧
    (stateOf (step { atCode with irqRequest := true, p := 0x20#8 })).fault = false := by decide +kernel

/-- A state that meets the invariant and has a next state; so too the statement about the cartridge. -/
theorem test_witness_invariant : Inv atCode ∧ (∃ t, step atCode = .next t) ∧ atCode.cart.chrIsRam = false := by
  refine ⟨?_, ?_, rfl⟩
  · constructor <;> decide +kernel
  · obtain ⟨u, _, h⟩ := step_instr (s := atCode) rfl rfl
    exact ⟨_, h⟩

/-- An image the loader accepts: its machine is reachable. -/
def smallImage : CartridgeImage :=
  { mapperId := 0, prg := List.replicate 16384 0x00#8, chr := none, chrIsRam := false, mirroring := some .vertical }

theorem test_witness_reachable : ∃ s, loadCartridge defaultParams smallImage = .next s ∧ Reachable s := by
  have h : ∃ s, loadCartridge defaultParams smallImage = .next s := by
    simp only [loadCartridge, smallImage, List.length_replicate]
    exact ⟨_, rfl⟩
  obtain ⟨s, hs⟩ := h
  exact ⟨s, hs, .load _ _ s hs⟩

/-- The same with a pattern bank, and an image of another mapper. -/
theorem test_witness_loadRefusals :
    (∃ bytes : List Byte, bytes.length = 8192 ∧ ∃ s, loadCartridge defaultParams { smallImage with chr := some bytes } = .next s) ∧
    ({ smallImage with mapperId := 1 } : CartridgeImage).mapperId ≠ 0 := by
  refine ⟨⟨List.replicate 8192 0x00#8, List.length_replicate, ?_⟩, nofun⟩
  generalize hb : List.replicate 8192 0x00#8 = bytes
  have hl : bytes.length = 8192 := by rw [← hb, List.length_replicate]
  simp only [loadCartridge, smallImage, List.length_replicate, hl]
  exact ⟨_, rfl⟩

/-- Register 5 and 6 with either toggle, register 7 at each end of each range of `v`. -/
theorem test_witness_toggle_and_address :
    start.ppu.w = false ∧ ({ start.ppu with w := true } : Picture).w = true ∧ 0x1FFF % 16384 < 0x2000 ∧ 0x2000 ≤ 0x2000 % 16384 ∧
    0x3EFF % 16384 < 0x3F00 ∧ 0x3F00 ≤ 0x7FFF % 16384 := by decide

theorem test_witness_spriteTableWrites : (0x1F#8).toNat < 0x20 ∧ 0x80 ≤ (0x80#8).toNat := by decide

theorem test_witness_inputLatch :
    ({ start.params with pad2Present := true } : Params).pad2Present = true ∧ ({ start.latch with strobe := true } : Latch).strobe = true ∧
    start.latch.strobe = false ∧ (0xFE#8).getLsbD 0 = false ∧ (0x01#8).getLsbD 0 = true ∧
    (let l : Latch := { start.latch with idx := 7, idx2 := 7 }
    l.strobe = false ∧ l.idx < 8 ∧ l.idx2 < 8) ∧
    (let l : Latch := { start.latch with idx := 8, idx2 := 8 }
    l.strobe = false ∧ 8 ≤ l.idx ∧ 8 ≤ l.idx2) := by decide

/-- The dots of FrameEvents, and a dot that is neither. -/
theorem test_witness_frameEvents :
    (let g := { start.ppu with scanline := 241, dot := 1, ctrl := 0x80#8 }
    dotRequestsNmi g = true) ∧ ¬(start.ppu.dot = 1 ∧ (start.ppu.scanline = 241 ∨ start.ppu.scanline = 261)) := by decide +kernel

/-- The first and the last visible dot; a line buffer whose second entry is the first opaque one at the last column; a dot that is not visible. -/
theorem test_witness_pixelComposition :
    (let g := { start.ppu with scanline := 0, dot := 1 }
    g.scanline ≤ 239 ∧ 1 ≤ g.dot ∧ g.dot ≤ 256 ∧ g.scanline < g.fb.length ∧ g.mask.getLsbD 4 = false) ∧
    (let clear : SpriteEntry := { x := 248#8, attr := 0#8, lo := 0x00#8, hi := 0x00#8, isZero := true }
    let solid : SpriteEntry := { x := 255#8, attr := 0x20#8, lo := 0x80#8, hi := 0x00#8, isZero := false }
    let g := { start.ppu with scanline := 239, dot := 256, mask := 0x10#8, sprites := [clear, solid] }
    g.scanline ≤ 239 ∧ 1 ≤ g.dot ∧ g.dot ≤ 256 ∧ g.scanline < g.fb.length ∧ g.mask.getLsbD 4 = true ∧ 8 ≤ g.dot - 1 ∧
      g.sprites = [clear] ++ solid :: [] ∧ (248 ≤ 255 ∧ 255 ≤ 248 + 7) ∧ (0x00#8).getLsbD 0 = false ∧ (0x80#8).getLsbD 7 = true) ∧
    (let g := { start.ppu with scanline := 239, dot := 257 }
    ¬(g.scanline ≤ 239 ∧ 1 ≤ g.dot ∧ g.dot ≤ 256) ∧ ¬(g.scanline = 261 ∧ g.dot = 1)) := by
  decide +kernel

/-- Scanline 239 at dot 257, with rendering off, and on by either bit; the frame start; a dot that is neither. -/
theorem test_witness_spriteEvaluation :
    (let g := { start.ppu with scanline := 239, dot := 257 }
    g.scanline ≤ 239 ∧ g.dot = 257 ∧ g.mask.getLsbD 3 = false ∧ g.mask.getLsbD 4 = false) ∧
    ({ start.ppu with mask := 0x08#8 } : Picture).mask.getLsbD 3 = true ∧ ({ start.ppu with mask := 0x10#8 } : Picture).mask.getLsbD 4 = true ∧
    (let g := { start.ppu with scanline := 261, dot := 1 }
    g.scanline = 261 ∧ g.dot = 1) ∧
    (let g := { start.ppu with scanline := 240, dot := 257 }
    ¬(g.scanline ≤ 239 ∧ g.dot = 257) ∧ ¬(g.scanline = 261 ∧ g.dot = 1)) := by
  decide

/-- With rendering off: the last visible pixel. -/
theorem test_witness_renderingDisabled :
    (let g := { start.ppu with scanline := 239, dot := 256 }
    g.mask.getLsbD 3 = false ∧ g.mask.getLsbD 4 = false ∧ g.scanline ≤ 239 ∧ g.scanline < g.fb.length ∧ 1 ≤ g.dot ∧ g.dot ≤ 256) := by
  decide +kernel

/-- The pre-render line with rendering on; the boundary dots of the schedule; scanline 240, where nothing moves though rendering is on. -/
theorem test_witness_schedule :
    (let g := { start.ppu with scanline := 261, dot := 304, mask := 0x08#8 }
    (g.scanline ≤ 239 ∨ g.scanline = 261) ∧ (g.mask.getLsbD 3 = true ∨ g.mask.getLsbD 4 = true) ∧ 280 ≤ g.dot ∧ g.dot ≤ 304) ∧
    (8 % 8 = 0 ∧ 1 ≤ 8 ∧ 8 < 256) ∧ (336 % 8 = 0 ∧ 321 ≤ 336 ∧ 336 ≤ 336) ∧ (9 % 8 = 1 ∧ 257 % 8 = 1 ∧ 9 ≤ 257) ∧
    (let g := { start.ppu with scanline := 240, dot := 9, mask := 0x18#8 }
    ¬(g.scanline ≤ 239 ∨ g.scanline = 261) ∧ (g.mask.getLsbD 3 = true ∨ g.mask.getLsbD 4 = true)) := by decide

end Sys2Proof.Tests
end

namespace Sys2Proof.Machine

/-! The invariant (O41, O42). -/

/-- What every `fetch8` leaves alone, fetching an instruction leaves alone. -/
theorem fetchInstruction_keep {α : Type} (f : State → α) (h : ∀ u, f (fetch8 u).2 = f u) (s : State) :
    f (fetchInstruction s).2 = f s := by
  have fetches : ∀ n, f (fetched n s) = f s := by
    intro n
    induction n with
    | zero => rfl
    | succ n ih => rw [fetched, Function.iterate_succ_apply', h]; exact ih
  rw [fetchInstruction_eq]
  exact fetches _

@[simp] theorem fetchInstruction_rem (s : State) : (fetchInstruction s).2.rem = s.rem :=
  fetchInstruction_keep State.rem (fun u => by rw [fetch8_eq]; simp) s

@[simp] theorem fetchInstruction_fault (s : State) : (fetchInstruction s).2.fault = s.fault :=
  fetchInstruction_keep State.fault (fun u => by rw [fetch8_eq]; simp) s

@[simp] theorem fetchInstruction_params (s : State) : (fetchInstruction s).2.params = s.params :=
  fetchInstruction_keep State.params (fun u => by rw [fetch8_eq]; simp) s

theorem MidInv.setStall {s : State} (h : MidInv s) {n : Nat} (hn : n = 0 ∨ n = s.params.dmaStallCycles) :
    MidInv { s with dmaStall := n } :=
  ⟨h.status, hn, h.pic, h.latchIdx, h.ram, h.prg, h.chr, h.chrImage, h.rom, h.noIrq⟩

theorem MidInv.serviceNmi {s : State} (h : MidInv s) : MidInv (Machine.serviceNmi s) :=
  ((h.setPpu false h.pic).takeException nmiVector false).setRem _

theorem MidInv.serviceIrq {s : State} (h : MidInv s) : MidInv (Machine.serviceIrq s) :=
  (h.takeException irqVector false).setRem _

/-- A step that raises FatalDecodeError answers what the fetch left, with the latch set and the stall put back (R282). -/
theorem exec_fetched_fault {s u : State} (hs : s.fault = false)
    (hu : exec (fetchInstruction (takeStall s)).1 (fetchInstruction (takeStall s)).2 = .next u) (hf : u.fault = true) :
    u.rem = s.rem ∧ u.params = s.params := by
  obtain ⟨op, -, rfl⟩ := exec_fault hu (by simpa using hs) hf
  exact ⟨fetchInstruction_rem _, fetchInstruction_params _⟩

/-- Settles O41: every arm of the step keeps the invariant but for `rem`, and the end of the step leaves `rem` 0; a step that raises
FatalDecodeError never set it. -/
theorem stepKeepsInvariant : Obligations.StepKeepsInvariant := by
  intro s t hs hstep
  have h0 : MidInv (takeStall s) := hs.mid.setStall (.inl rfl)
  obtain ⟨hfault, ⟨-, rfl⟩ | ⟨-, rfl⟩ | ⟨-, u, hu, rfl⟩⟩ := step_cases hstep
  · exact h0.serviceNmi.finishStep _
  · exact h0.serviceIrq.finishStep _
  · have hmid : MidInv u := exec_keeps _ h0.fetchInstruction u hu
    unfold completeStep
    split
    · next hf =>
      obtain ⟨hrem, hparams⟩ := exec_fetched_fault hfault hu hf
      refine MidInv.inv (hmid.setStall ?_) (hrem.trans hs.idle)
      rw [hparams]
      exact hs.stall
    · exact hmid.finishStep _

/-- A tick keeps the invariant but for `rem`. -/
theorem MidInv.tick {s : State} (h : MidInv s) (n : Nat) : MidInv (Machine.tick n s) := by
  rw [tick_eq]
  refine ⟨h.status, h.stall, ?_, h.latchIdx, h.ram, h.prg, h.chr, h.chrImage, h.rom, h.noIrq⟩
  have := h.pic.dots s.chr s.cart.mirroring (3 * n)
  rwa [← Nat.mul_add] at this

/-- Reset establishes the invariant, whatever the registers and work memory held before it (R510). -/
theorem inv_resetSequence {s : State} (hprg : s.cart.prg.ok s.cart.prgSize.bytes = true) (hchr : s.chr.ok Config.chrSize = true)
    (himage : s.cart.chrImage.ok Config.chrSize = true) (hrom : s.cart.chrIsRam = false → s.chr = s.cart.chrImage) :
    Inv (resetSequence s) := by
  rw [resetSequence_eq]
  refine ((midInv_resetRegisters hprg hchr himage hrom).setPc _).tick s.params.resetCycles |>.inv ?_
  rw [tick_eq]
  exact Nat.zero_sub _

/-- Settles O42: State.reset is what the reset sequence leaves of the blank cartridge. -/
theorem resetStateInvariant : Obligations.ResetStateInvariant := by
  have h : Inv State.reset := reset_eq ▸ inv_resetSequence (s := State.reset) rfl rfl rfl (fun _ => rfl)
  exact ⟨h, rfl, rfl⟩

end Sys2Proof.Machine

namespace Sys2Proof.Machine

/-! What an instruction may write (10_state.md R21 to R28): a table by mnemonic, and `Runs`, which says that an instruction does nothing
but the bus accesses and register writes its row allows. The frame of every form is then read off `Runs` by induction. -/

/-- The general registers and the flags an instruction may write, whether it may move PC, and whether it may write memory. -/
structure Footprint where
  regs : List Reg := []
  flags : List Flag := []
  pc : Bool := false
  stores : Bool := false

/-- The footprint of a mnemonic (R21 to R28). -/
def footprint : Form → Footprint
  | .lda _ | .and _ | .ora _ | .eor _ | .txa | .tya => { regs := [.a], flags := [.z, .n] }
  | .ldx _ | .tax | .tsx | .inx | .dex => { regs := [.x], flags := [.z, .n] }
  | .ldy _ | .tay | .iny | .dey => { regs := [.y], flags := [.z, .n] }
  | .txs => { regs := [.s] }
  | .sta _ | .stx _ | .sty _ => { stores := true }
  | .pha | .php => { regs := [.s], stores := true }
  | .pla => { regs := [.a, .s], flags := [.z, .n] }
  | .plp => { regs := [.s], flags := [.c, .z, .i, .d, .b, .u, .v, .n] }
  | .adc _ | .sbc _ => { regs := [.a], flags := [.z, .n, .v, .c] }
  | .cmp _ | .cpx _ | .cpy _ => { flags := [.z, .n, .c] }
  | .bit _ => { flags := [.z, .n, .v] }
  | .inc _ | .dec _ => { flags := [.z, .n], stores := true }
  | .asl .acc | .lsr .acc | .rol .acc | .ror .acc => { regs := [.a], flags := [.z, .n, .c] }
  | .asl (.mem _) | .lsr (.mem _) | .rol (.mem _) | .ror (.mem _) => { flags := [.z, .n, .c], stores := true }
  | .jmpAbs _ | .jmpInd _ | .undocumented _ => { pc := true }
  | .bcc _ | .bcs _ | .beq _ | .bne _ | .bmi _ | .bpl _ | .bvc _ | .bvs _ => { pc := true }
  | .jsr _ => { regs := [.s], pc := true, stores := true }
  | .rts => { regs := [.s], pc := true }
  | .brk => { regs := [.s], flags := [.i], pc := true, stores := true }
  | .rti => { regs := [.s], flags := [.c, .z, .i, .d, .b, .u, .v, .n], pc := true }
  | .clc | .sec => { flags := [.c] }
  | .cli | .sei => { flags := [.i] }
  | .clv => { flags := [.v] }
  | .cld | .sed => { flags := [.d] }
  | .nop => {}

/-- The footprint writes memory exactly for the forms that the statements call storing. -/
theorem footprint_stores (f : Form) : (footprint f).stores = formStores f := by
  cases f with
  | asl tgt | lsr tgt | rol tgt | ror tgt => cases tgt <;> rfl
  | _ => rfl

/-- `q` has the flags of `p` but for those of a list. -/
def FlagsKept (l : List Flag) (p q : Byte) : Prop := ∀ f, f ∉ l → getFlag f q = getFlag f p

/-- A status whose written flags are known keeps every other flag. -/
theorem FlagsAre.kept {p q : Byte} {w : List (Flag × Bool)} {l : List Flag} (h : FlagsAre p q w) (hw : w.map Prod.fst ⊆ l) :
    FlagsKept l p q := by
  intro f hf
  have hnone : w.lookup f = none := by
    rw [List.lookup_eq_none_iff]
    intro e he
    have : f ≠ e.1 := fun hfe => hf (hw (hfe ▸ List.mem_map_of_mem he))
    simpa using this
  rw [h f, hnone, Option.getD_none]

/-- `t` comes from `s` by bus reads, and by the writes that the footprint allows. -/
inductive Runs (F : Footprint) (s : State) : State → Prop
  | refl : Runs F s s
  | read {t : State} (a : Word) : Runs F s t → Runs F s (memRead a t).2
  | write {t : State} (hF : F.stores = true) (a : Word) (v : Byte) : Runs F s t → Runs F s (memWrite a v t)
  | reg {t : State} {r : Reg} (hF : r ∈ F.regs) (v : Byte) : Runs F s t → Runs F s (writeReg r v t)
  | status {t : State} {p : Byte} (hF : FlagsKept F.flags t.p p) : Runs F s t → Runs F s (setP p t)
  | jump {t : State} (hF : F.pc = true) (w : Word) : Runs F s t → Runs F s (setPc w t)
  | cost {t : State} (n : Nat) : Runs F s t → Runs F s { t with rem := n }
  | fatal {t : State} (hF : F.pc = true) (op : Byte) : Runs F s t → Runs F s (raiseFatalDecodeError op t)

section
variable {F : Footprint} {s t u : State}

/-! The operations that several instructions share. -/

theorem Runs.setZN {p : Byte} (h : Runs F s t) (hF : [Flag.z, .n] ⊆ F.flags) (hp : t.p = p) (v : Byte) :
    Runs F s (setP (Machine.setZN v p) t) :=
  .status (hp ▸ (flagsAre_setZN v t.p).kept hF) h

theorem Runs.push (h : Runs F s t) (hs : Reg.s ∈ F.regs) (hm : F.stores = true) (v : Byte) : Runs F s (Machine.push v t) :=
  .reg hs _ (.write hm _ _ h)

theorem Runs.push16 (h : Runs F s t) (hs : Reg.s ∈ F.regs) (hm : F.stores = true) (w : Word) : Runs F s (Machine.push16 w t) :=
  (h.push hs hm _).push hs hm _

theorem Runs.pull (h : Runs F s t) (hs : Reg.s ∈ F.regs) : Runs F s (Machine.pull t).2 := .read _ (.reg hs _ h)

theorem Runs.pull16 (h : Runs F s t) (hs : Reg.s ∈ F.regs) : Runs F s (Machine.pull16 t).2 := (h.pull hs).pull hs

theorem Runs.takeException (h : Runs F s t) (hs : Reg.s ∈ F.regs) (hi : [Flag.i] ⊆ F.flags) (hp : F.pc = true)
    (hm : F.stores = true) (vector : Word) (brk : Bool) : Runs F s (Machine.takeException vector brk t) := by
  have hpushed := (h.push16 hs hm t.pc).push hs hm (pushedStatus brk (Machine.push16 t.pc t).p)
  exact .jump hp _ (.read _ (.read _ (.status ((flagsAre_setFlag .i true _).kept hi) hpushed)))

theorem Runs.readSource (h : Runs F s t) (src : Source) : Runs F s (Machine.readSource src t).st := by
  rcases readSource_st t src with e | ⟨a, e⟩ <;> rw [e]
  · exact h
  · exact .read a h

/-! The meanings that several instructions share. -/

theorem Runs.finish {cost : Nat} (h : Runs F s u) (e : Machine.finish cost u = .next t) : Runs F s t := by
  cases e
  exact .cost cost h

theorem runs_loadReg {r : Reg} {src : Source} {base : Nat} (e : loadReg r src base s = .next t) (hr : r ∈ F.regs)
    (hf : [Flag.z, .n] ⊆ F.flags) : Runs F s t := by
  have hreg := Runs.reg hr (readSource src s).val ((Runs.refl (F := F) (s := s)).readSource src)
  exact Runs.finish (hreg.setZN hf (writeReg_p _ _ _) _) e

theorem runs_storeReg {r : Reg} {m : AddrMode} {base : Nat} (e : storeReg r m base s = .next t) (hm : F.stores = true) :
    Runs F s t := by
  simp only [storeReg, locate_st] at e
  exact Runs.finish (.write hm _ _ .refl) e

theorem runs_transferFlags {src dst : Reg} {base : Nat} (e : transferFlags src dst base s = .next t) (hr : dst ∈ F.regs)
    (hf : [Flag.z, .n] ⊆ F.flags) : Runs F s t := by
  have hreg := Runs.reg hr (readReg src s) (Runs.refl (F := F) (s := s))
  exact Runs.finish (hreg.setZN hf (writeReg_p _ _ _) _) e

theorem runs_accumulate {f : Byte → Byte → Byte → Byte × Byte} {src : Source} {base : Nat} (e : accumulate f src base s = .next t)
    (hr : Reg.a ∈ F.regs) (hf : ∀ a m p, FlagsKept F.flags p (f a m p).2) : Runs F s t :=
  Runs.finish (.status (hf _ _ _) (.reg hr _ (Runs.refl.readSource src))) e

theorem runs_compareReg {r : Reg} {src : Source} {base : Nat} (e : compareReg r src base s = .next t)
    (hf : [Flag.z, .n, .c] ⊆ F.flags) : Runs F s t :=
  Runs.finish (.status ((flagsAre_compareFlags _ _ _).kept hf) (Runs.refl.readSource src)) e

theorem runs_testBits {m : AddrMode} {base : Nat} (e : testBits m base s = .next t) (hf : [Flag.z, .n, .v] ⊆ F.flags) :
    Runs F s t :=
  Runs.finish (.status ((flagsAre_bitFlags _ _ _).kept hf) (Runs.refl.readSource (.mem m))) e

theorem runs_modifyMem {f : Byte → Byte → Byte × Byte} {m : AddrMode} {base : Nat} (e : modifyMem f m base s = .next t)
    (hm : F.stores = true) (hf : ∀ b p, FlagsKept F.flags p (f b p).2) : Runs F s t := by
  simp only [modifyMem, locate_st] at e
  refine Runs.finish (.status ?_ (.write hm _ _ (.read _ .refl))) e
  rw [memWrite_p]
  exact hf _ _

theorem runs_modifyReg {f : Byte → Byte → Byte × Byte} {r : Reg} {base : Nat} (e : modifyReg f r base s = .next t)
    (hr : r ∈ F.regs) (hf : ∀ b p, FlagsKept F.flags p (f b p).2) : Runs F s t := by
  refine Runs.finish (.status ?_ (.reg hr _ .refl)) e
  rw [writeReg_p]
  exact hf _ _

theorem runs_branchIf {cond : Bool} {d8 : Byte} {base : Nat} (e : branchIf cond d8 base s = .next t) (hp : F.pc = true) :
    Runs F s t := by
  simp only [branchIf] at e
  split at e
  · exact Runs.finish (.jump hp _ .refl) e
  · exact Runs.finish .refl e

theorem runs_writeFlag {f : Flag} {val : Bool} {base : Nat} (e : writeFlag f val base s = .next t) (hf : [f] ⊆ F.flags) :
    Runs F s t := Runs.finish (.status ((flagsAre_setFlag f val s.p).kept hf) .refl) e

end

/-- Every mnemonic does what its footprint allows, and nothing else. -/
theorem execForm_runs {f : Form} {s t : State} (e : execForm f s = .next t) : Runs (footprint f) s t := by
  have hadc : ∀ a m p, FlagsKept [.z, .n, .v, .c] p (adcByte a m p).2 := fun a m p => (flagsAre_adcByte a m p).kept (by simp)
  have hzn : ∀ v p, FlagsKept [.z, .n] p (setZN v p) := fun v p => (flagsAre_setZN v p).kept (by simp)
  have hshift : ∀ v c p, FlagsKept [.z, .n, .c] p (setZN v (setFlag .c c p)) := fun v c p =>
    (flagsAre_setZN_c v p c).kept (by simp)
  have hall : ∀ p q, FlagsKept [.c, .z, .i, .d, .b, .u, .v, .n] p q := fun p q g hg => absurd (by cases g <;> simp) hg
  have start : Runs (footprint f) s s := .refl
  unfold execForm at e
  split at e
  case h_1 | h_2 | h_3 => exact runs_loadReg e (by simp [footprint]) (by simp [footprint])
  case h_4 | h_5 | h_6 => exact runs_storeReg e rfl
  case h_7 | h_8 | h_9 | h_10 | h_11 => exact runs_transferFlags e (by simp [footprint]) (by simp [footprint])
  case h_12 => exact Runs.finish (.reg (by simp [footprint]) _ start) e
  case h_13 | h_14 => exact Runs.finish (start.push (by simp [footprint]) rfl _) e
  case h_15 =>
    have hreg := Runs.reg (r := .a) (by simp [footprint]) (pull s).1 (start.pull (by simp [footprint]))
    exact Runs.finish (hreg.setZN (by simp [footprint]) rfl _) e
  case h_16 => exact Runs.finish (.status (hall _ _) (start.pull (by simp [footprint]))) e
  case h_17 => exact runs_accumulate e (by simp [footprint]) hadc
  case h_18 => exact runs_accumulate e (by simp [footprint]) (fun a m p => hadc a (m ^^^ 0xFF#8) p)
  case h_19 | h_20 | h_21 => exact runs_accumulate e (by simp [footprint]) (fun _ _ p => hzn _ p)
  case h_22 | h_23 | h_24 => exact runs_compareReg e (by simp [footprint])
  case h_25 | h_26 => exact runs_modifyMem e rfl (fun _ p => hzn _ p)
  case h_27 | h_28 | h_29 | h_30 => exact runs_modifyReg e (by simp [footprint]) (fun _ p => hzn _ p)
  case h_31 => exact runs_testBits e (by simp [footprint])
  case h_32 | h_33 | h_34 | h_35 => exact runs_modifyReg e (by simp [footprint]) (fun _ p => hshift _ _ p)
  case h_36 | h_37 | h_38 | h_39 => exact runs_modifyMem e rfl (fun _ p => hshift _ _ p)
  case h_40 => exact Runs.finish (.jump rfl _ start) e
  case h_41 => exact Runs.finish (.jump rfl _ (.read _ (.read _ start))) e
  case h_42 => exact Runs.finish (.jump rfl _ (start.push16 (by simp [footprint]) rfl _)) e
  case h_43 => exact Runs.finish (.jump rfl _ (start.pull16 (by simp [footprint]))) e
  case h_44 | h_45 | h_46 | h_47 | h_48 | h_49 | h_50 | h_51 => exact runs_branchIf e rfl
  case h_52 =>
    exact Runs.finish (Runs.takeException (.jump rfl _ start) (by simp [footprint]) (by simp [footprint]) rfl rfl _ _) e
  case h_53 =>
    exact Runs.finish (.jump rfl _ (Runs.pull16 (.status (hall _ _) (start.pull (by simp [footprint]))) (by simp [footprint]))) e
  case h_54 | h_55 | h_56 | h_57 | h_58 | h_59 | h_60 => exact runs_writeFlag e (by simp [footprint])
  case h_61 => exact Runs.finish start e
  case h_62 =>
    cases e
    exact .fatal rfl _ start

/-- Every instruction does what the footprint of its mnemonic allows, and nothing else. -/
theorem exec_runs {i : Instr} {s t : State} (h : exec i s = .next t) : Runs (footprint i.form) s t :=
  execForm_runs (exec_eq i s ▸ h)

/-! The registers and the flags (O32, O33). -/

@[simp] theorem readReg_memWrite (a : Word) (v : Byte) (s : State) (r : Reg) : readReg r (memWrite a v s) = readReg r s := by
  cases r <;> simp

section
variable {F : Footprint} {s t : State}

theorem Runs.readReg (h : Runs F s t) (q : Reg) : Machine.readReg q t = Machine.readReg q s ∨ q ∈ F.regs := by
  induction h with
  | refl => exact .inl rfl
  | read a _ ih => rwa [readReg_memRead]
  | write _ a v _ ih => rwa [readReg_memWrite]
  | @reg t r hr v _ ih =>
    by_cases hq : q = r
    · exact .inr (hq ▸ hr)
    · rwa [readReg_writeReg_other _ _ hq]
  | status _ _ ih => rwa [readReg_setP]
  | jump _ w _ ih => rwa [readReg_setPc]
  | cost n _ ih => cases q <;> exact ih
  | fatal _ op _ ih => cases q <;> exact ih

theorem Runs.pc (h : Runs F s t) : t.pc = s.pc ∨ F.pc = true := by
  induction h with
  | refl => exact .inl rfl
  | read a _ ih => rwa [memRead_pc]
  | write _ a v _ ih => rwa [memWrite_pc]
  | reg _ v _ ih => rwa [writeReg_pc]
  | status _ _ ih => exact ih
  | jump hF _ _ _ => exact .inr hF
  | cost n _ ih => exact ih
  | fatal hF _ _ _ => exact .inr hF

theorem Runs.flag (h : Runs F s t) (f : Flag) : getFlag f t.p = getFlag f s.p ∨ f ∈ F.flags := by
  induction h with
  | refl => exact .inl rfl
  | read a _ ih => rwa [memRead_p]
  | write _ a v _ ih => rwa [memWrite_p]
  | reg _ v _ ih => rwa [writeReg_p]
  | status hF _ ih =>
    by_cases hf : f ∈ F.flags
    · exact .inr hf
    · exact .inl ((hF f hf).trans (ih.resolve_right hf))
  | jump _ _ _ ih => exact ih
  | cost n _ ih => exact ih
  | fatal _ _ _ ih => exact ih

end

/-! The rows of the footprint table that name a register, PC or a flag, read off instruction by instruction. -/

theorem writers_a {i : Instr} (h : Reg.a ∈ (footprint i.form).regs) :
    (∃ src, i.form ∈ [.lda src, .adc src, .sbc src, .and src, .ora src, .eor src]) ∨
      i ∈ [.txa, .tya, .pla, .aslAcc, .lsrAcc, .rolAcc, .rorAcc] := by
  cases i <;> simp [Instr.form, footprint] at h ⊢

theorem writers_x {i : Instr} (h : Reg.x ∈ (footprint i.form).regs) :
    (∃ src, i.form = .ldx src) ∨ i ∈ [.tax, .tsx, .inx, .dex] := by
  cases i <;> simp [Instr.form, footprint] at h ⊢

theorem writers_y {i : Instr} (h : Reg.y ∈ (footprint i.form).regs) :
    (∃ src, i.form = .ldy src) ∨ i ∈ [.tay, .iny, .dey] := by
  cases i <;> simp [Instr.form, footprint] at h ⊢

theorem writers_s {i : Instr} (h : Reg.s ∈ (footprint i.form).regs) :
    (∃ a16, i = .jsr a16) ∨ i ∈ [.txs, .pha, .php, .pla, .plp, .rts, .brk, .rti] := by
  cases i <;> simp [Instr.form, footprint] at h ⊢

theorem writers_pc {i : Instr} (h : (footprint i.form).pc = true) :
    (∃ a16, i ∈ [.jmpAbs a16, .jmpInd a16, .jsr a16]) ∨
      (∃ d8, i ∈ [.bcc d8, .bcs d8, .beq d8, .bne d8, .bmi d8, .bpl d8, .bvc d8, .bvs d8, .undocumented d8]) ∨
      i ∈ [.rts, .brk, .rti] := by
  cases i <;> simp [Instr.form, footprint] at h ⊢

/-- N and Z stand in the same rows. -/
theorem writers_nz {i : Instr} {f : Flag} (hf : f = .n ∨ f = .z) (h : f ∈ (footprint i.form).flags) :
    (∃ src, i.form ∈ [.lda src, .ldx src, .ldy src, .and src, .ora src, .eor src, .cmp src, .cpx src, .cpy src, .adc src, .sbc src]) ∨
      (∃ m, i.form ∈ [.inc m, .dec m, .bit m]) ∨ (∃ g, i.form ∈ [.asl g, .lsr g, .rol g, .ror g]) ∨
      i ∈ [.tax, .tay, .txa, .tya, .tsx, .pla, .inx, .iny, .dex, .dey, .plp, .rti] := by
  rcases hf with rfl | rfl <;> cases i <;> simp [Instr.form, footprint] at h ⊢

theorem writers_c {i : Instr} (h : Flag.c ∈ (footprint i.form).flags) :
    (∃ src, i.form ∈ [.adc src, .sbc src]) ∨ (∃ src, i.form ∈ [.cmp src, .cpx src, .cpy src]) ∨
      (∃ g, i.form ∈ [.asl g, .lsr g, .rol g, .ror g]) ∨ i ∈ [.clc, .sec, .plp, .rti] := by
  cases i <;> simp [Instr.form, footprint] at h ⊢

theorem writers_v {i : Instr} (h : Flag.v ∈ (footprint i.form).flags) :
    (∃ src, i.form ∈ [.adc src, .sbc src]) ∨ (∃ m, i.form = .bit m) ∨ i ∈ [.clv, .plp, .rti] := by
  cases i <;> simp [Instr.form, footprint] at h ⊢

theorem writers_i {i : Instr} (h : Flag.i ∈ (footprint i.form).flags) : i ∈ [.cli, .sei, .brk, .plp, .rti] := by
  cases i <;> simp [Instr.form, footprint] at h ⊢

theorem writers_d {i : Instr} (h : Flag.d ∈ (footprint i.form).flags) : i ∈ [.cld, .sed, .plp, .rti] := by
  cases i <;> simp [Instr.form, footprint] at h ⊢

/-- B and U stand in the same rows. -/
theorem writers_bu {i : Instr} {f : Flag} (hf : f = .b ∨ f = .u) (h : f ∈ (footprint i.form).flags) : i ∈ [.plp, .rti] := by
  rcases hf with rfl | rfl <;> cases i <;> simp [Instr.form, footprint] at h ⊢

/-- Settles O32: an instruction writes the registers of its footprint only, and the rows that name a register are those listed. -/
theorem registerWriters : Obligations.RegisterWriters := by
  intro i s t h
  have hr := exec_runs h
  exact ⟨(hr.readReg .a).imp_right writers_a, (hr.readReg .x).imp_right writers_x, (hr.readReg .y).imp_right writers_y,
    (hr.readReg .s).imp_right writers_s, hr.pc.imp_right writers_pc⟩

/-- Settles O33: an instruction writes the flags of its footprint only, and the rows that name a flag are those listed. -/
theorem flagWriters : Obligations.FlagWriters := by
  intro i s t h
  have hr := exec_runs h
  exact ⟨(hr.flag .n).imp_right (writers_nz (.inl rfl)), (hr.flag .z).imp_right (writers_nz (.inr rfl)),
    (hr.flag .c).imp_right writers_c, (hr.flag .v).imp_right writers_v, (hr.flag .i).imp_right writers_i,
    (hr.flag .d).imp_right writers_d, (hr.flag .b).imp_right (writers_bu (.inl rfl)), (hr.flag .u).imp_right (writers_bu (.inr rfl))⟩

/-! What an instruction that stores nothing leaves (O28). -/

/-- The part of the state that only a store or a dot can change: everything that neither a bus read nor a register write reaches. The
other fields are blank, so that two states agree on this part when these two are equal. -/
def storage (s : State) : State :=
  { s with
    a := 0#8, x := 0#8, y := 0#8, sp := 0#8, p := 0#8, pc := 0#16, rem := 0, fault := false, faultOpcode := 0#8, faultPc := 0#16
    ppu := { s.ppu with vblank := false, w := false, buffer := 0#8, v := 0#15 }
    latch := { s.latch with shift := 0#8, idx := 0, shift2 := 0#8, idx2 := 0 } }

@[simp] theorem storage_memRead (a : Word) (s : State) : storage (memRead a s).2 = storage s := by rw [memRead_snd]; rfl

@[simp] theorem storage_writeReg (r : Reg) (v : Byte) (s : State) : storage (writeReg r v s) = storage s := by cases r <;> rfl

theorem Runs.storage {F : Footprint} {s t : State} (h : Runs F s t) (hF : F.stores = false) :
    Machine.storage t = Machine.storage s := by
  induction h with
  | refl => rfl
  | read a _ ih => rw [storage_memRead, ih]
  | write hw => rw [hF] at hw; cases hw
  | reg _ v _ ih => rw [storage_writeReg, ih]
  | status _ _ ih => exact ih
  | jump _ w _ ih => exact ih
  | cost n _ ih => exact ih
  | fatal _ op _ ih => exact ih

/-- A read without side effect depends on the storage alone (R76, R322). -/
theorem peek_storage {a : Word} {s : State} (h : readHasSideEffect a s = false) : peek a (storage s) = peek a s := by
  simp only [readHasSideEffect, Bool.or_eq_false_iff, Bool.and_eq_false_iff, decide_eq_false_iff_not] at h
  obtain ⟨⟨h1, h2⟩, h3⟩ := h
  simp only [peek, memRead]
  split
  · rfl
  · split
    · have hr : a.toNat % 8 ≠ 2 ∧ a.toNat % 8 ≠ 7 := by omega
      unfold ppuRegRead
      split
      case h_1 | h_3 => omega
      all_goals rfl
    · split
      · next h17 =>
        have hpad : s.params.pad2Present = false := h3.resolve_left (fun hne => hne h17)
        simp [storage, hpad]
      · split <;> rfl

/-- States with the same storage read the same at an address without side effect. -/
theorem peek_of_storage {a : Word} {s t : State} (h : storage t = storage s) (ha : readHasSideEffect a s = false) :
    peek a t = peek a s := by
  have hpad : t.params = s.params := (congrArg State.params h :)
  have hat : readHasSideEffect a t = false := by rwa [readHasSideEffect, hpad]
  rw [← peek_storage hat, h, peek_storage ha]

/-- Settles O28: an instruction that stores nothing is bus reads and register writes, which leave the storage. -/
theorem nonStoringFrame : Obligations.NonStoringFrame := by
  intro i s t hi h
  have hst : storage t = storage s := (exec_runs h).storage ((footprint_stores _).trans hi)
  have hppu := congrArg State.ppu hst
  have hoam : t.ppu.oam = s.ppu.oam := (congrArg Picture.oam hppu :)
  have hvram : t.ppu.vram = s.ppu.vram := (congrArg Picture.vram hppu :)
  have hpal : t.ppu.pal = s.ppu.pal := (congrArg Picture.pal hppu :)
  have hfb : t.ppu.fb = s.ppu.fb := (congrArg Picture.fb hppu :)
  have hchr : t.chr = s.chr := (congrArg State.chr hst :)
  have hcart : t.cart = s.cart := (congrArg State.cart hst :)
  refine ⟨fun a ha => peek_of_storage hst ha, fun k => ?_, fun row col => by rw [hfb], (congrArg State.nmiRequest hst :),
    (congrArg State.dmaStall hst :), (congrArg (fun u => u.latch.strobe) hst :), (congrArg Picture.ctrl hppu :),
    (congrArg Picture.mask hppu :), (congrArg Picture.oamAddr hppu :), (congrArg Picture.t hppu :), (congrArg Picture.fineX hppu :)⟩
  rw [hoam, hvram, hpal, hchr, hcart]
  exact ⟨rfl, rfl, rfl, rfl, rfl⟩

/-! What no step changes (O44). -/

/-- The part of the state that only the host changes (R53, R55): the cartridge with its pattern ROM, the parameters, the buttons and
the maskable request. The other fields are blank, so that two states agree on this part when these two are equal. -/
def hostSide (s : State) : State :=
  { State.reset with
    cart := s.cart, params := s.params, buttons := s.buttons, buttons2 := s.buttons2, irqRequest := s.irqRequest
    chr := if s.cart.chrIsRam then [] else s.chr }

/-- Pattern ROM ignores every write (R476). -/
theorem memWrite_rom (a : Word) (v : Byte) {s : State} (h : s.cart.chrIsRam = false) : (memWrite a v s).chr = s.chr := by
  unfold memWrite
  split
  · rfl
  · split
    · unfold ppuRegWrite
      split
      case h_7 =>
        simp only [dataWrite, ppuWrite, h]
        split
        · rfl
        · split <;> rfl
      all_goals rfl
    · split
      · simp only [oamDma]; rw [dmaCopy_snd]
      · split
        · rw [latchStrobe_snd]
        · split <;> rfl

theorem hostSide_memRead (a : Word) (s : State) : hostSide (memRead a s).2 = hostSide s := by rw [memRead_snd]; rfl

theorem hostSide_memWrite (a : Word) (v : Byte) (s : State) : hostSide (memWrite a v s) = hostSide s := by
  have hchr : (if s.cart.chrIsRam then [] else (memWrite a v s).chr) = if s.cart.chrIsRam then [] else s.chr := by
    cases h : s.cart.chrIsRam with
    | true => rfl
    | false => rw [memWrite_rom a v h]
  simp [hostSide, hchr]

theorem hostSide_fetch8 (s : State) : hostSide (fetch8 s).2 = hostSide s := hostSide_memRead s.pc s

theorem Runs.hostSide {F : Footprint} {s t : State} (h : Runs F s t) : Machine.hostSide t = Machine.hostSide s := by
  induction h with
  | refl => rfl
  | read a _ ih => rw [hostSide_memRead, ih]
  | write _ a v _ ih => rw [hostSide_memWrite, ih]
  | @reg _ r _ v _ ih => cases r <;> exact ih
  | status _ _ ih => exact ih
  | jump _ w _ ih => exact ih
  | cost n _ ih => exact ih
  | fatal _ op _ ih => exact ih

theorem hostSide_takeException (vector : Word) (brk : Bool) (s : State) : hostSide (takeException vector brk s) = hostSide s :=
  (Runs.takeException (F := footprint .brk) .refl (by simp [footprint]) (by simp [footprint]) rfl rfl vector brk).hostSide

theorem hostSide_finishStep (pending : Nat) (s : State) : hostSide (finishStep pending s) = hostSide s := by
  rw [finishStep_eq]; rfl

theorem hostSide_completeStep (pending : Nat) (s : State) : hostSide (completeStep pending s) = hostSide s := by
  unfold completeStep
  split
  · rfl
  · exact hostSide_finishStep pending s

/-- No step changes what belongs to the host. -/
theorem step_hostSide {s t : State} (h : step s = .next t) : hostSide t = hostSide s := by
  obtain ⟨-, ⟨-, rfl⟩ | ⟨-, rfl⟩ | ⟨-, u, hu, rfl⟩⟩ := step_cases h
  · rw [hostSide_finishStep]
    exact hostSide_takeException nmiVector false { takeStall s with nmiRequest := false }
  · rw [hostSide_finishStep]
    exact hostSide_takeException irqVector false (takeStall s)
  · calc hostSide (completeStep s.dmaStall u) = hostSide u := hostSide_completeStep _ _
      _ = hostSide (fetchInstruction (takeStall s)).2 := (exec_runs hu).hostSide
      _ = hostSide s := fetchInstruction_keep hostSide hostSide_fetch8 (takeStall s)

/-- Settles O44: no step changes the host's side of the state, which holds pattern ROM when CHR is ROM. -/
theorem stepKeepsCartridge : Obligations.StepKeepsCartridge := by
  intro s t h
  have hh := step_hostSide h
  have hcart : t.cart = s.cart := (congrArg State.cart hh :)
  refine ⟨hcart, (congrArg State.params hh :), (congrArg State.buttons hh :), (congrArg State.buttons2 hh :),
    (congrArg State.irqRequest hh :), fun hrom => ?_⟩
  have hchr := congrArg State.chr hh
  simpa [hostSide, hcart, hrom] using hchr

end Sys2Proof.Machine

namespace Sys2Proof.Machine

/-! The CPU address space, range by range (20_memory.md R81 to R86): one equation for each range of addresses and each port. -/

/-- The work memory cell of an address: a conjunction in R81, a remainder in the model. -/
theorem and_07FF_toNat (a : Word) : (a &&& 0x07FF#16).toNat = a.toNat % Config.ramSize := by
  rw [BitVec.toNat_and]
  exact Nat.and_two_pow_sub_one_eq_mod a.toNat 11

/-- Two addresses are mirrors of one work memory cell exactly when the cells' numbers agree. -/
theorem and_07FF_eq_iff (a b : Word) :
    b &&& 0x07FF#16 = a &&& 0x07FF#16 ↔ b.toNat % Config.ramSize = a.toNat % Config.ramSize := by
  rw [← BitVec.toNat_inj, and_07FF_toNat, and_07FF_toNat]

/-- The registers of the picture window, by the range of addresses and the remainder of R82. -/
theorem picRegister_eq_some_iff {a : Word} {r : Nat} :
    picRegister a = some r ↔ 0x2000 ≤ a.toNat ∧ a.toNat ≤ 0x3FFF ∧ a.toNat % 8 = r := by
  simp [picRegister, and_assoc]

/-- A read at any mirror of a picture register is a read of that register (R82). -/
theorem memRead_picRegister {a : Word} {r : Nat} (h : picRegister a = some r) (s : State) : memRead a s = ppuRegRead r s := by
  obtain ⟨hlo, hhi, rfl⟩ := picRegister_eq_some_iff.mp h
  exact memRead_ppu a s hlo hhi

/-- A write at any mirror of a picture register is a write of that register (R82). -/
theorem memWrite_picRegister {a : Word} {r : Nat} (h : picRegister a = some r) (v : Byte) (s : State) :
    memWrite a v s = ppuRegWrite r v s := by
  obtain ⟨hlo, hhi, rfl⟩ := picRegister_eq_some_iff.mp h
  exact memWrite_ppu a v s hlo hhi

/-- A read of the first pad's port (R494). -/
theorem memRead_pad1 (s : State) : memRead 0x4016#16 s = latchRead s := by simp [memRead]

/-- A read of the second pad's port (R497). -/
theorem memRead_pad2 (s : State) :
    memRead 0x4017#16 s = if s.params.pad2Present then latch2Read s else (0x00#8, s) := by simp [memRead]

/-- Between the picture registers and the program window nothing but the two ports answers a read (R84, R86). -/
theorem memRead_openBus {a : Word} (hlo : 0x4000 ≤ a.toNat) (hhi : a.toNat ≤ 0x7FFF) (h1 : a ≠ 0x4016#16) (h2 : a ≠ 0x4017#16)
    (s : State) : memRead a s = (s.params.openBus, s) := by
  rw [memRead, if_neg (by omega), if_neg (by omega), if_neg h1, if_neg h2]
  split
  · rfl
  · rw [readPrg, if_neg (by omega)]

/-- The picture registers that only take writes read as OPEN_BUS (R361). -/
theorem ppuRegRead_writeOnly {r : Nat} (h : r ∈ [0, 1, 3, 5, 6]) (s : State) : ppuRegRead r s = (s.params.openBus, s) := by
  simp only [List.mem_cons, List.not_mem_nil, or_false] at h
  rcases h with rfl | rfl | rfl | rfl | rfl <;> rfl

/-- From 0x4000 up only the sprite DMA port and the first pad's port accept a write (R84, R473). -/
theorem memWrite_ignored {a : Word} (hlo : 0x4000 ≤ a.toNat) (h1 : a ≠ 0x4014#16) (h2 : a ≠ 0x4016#16) (v : Byte) (s : State) :
    memWrite a v s = s := by
  rw [memWrite, if_neg (by omega), if_neg (by omega), if_neg h1, if_neg h2]
  exact ite_id s

/-- What a bus write can be: a store to work memory, a write of a picture register, a sprite DMA, a strobe, or nothing (R323). -/
theorem memWrite_cases (a : Word) (v : Byte) (s : State) :
    (a.toNat ≤ 0x1FFF ∧ memWrite a v s = { s with ram := s.ram.write (a.toNat % Config.ramSize) v }) ∨
    (∃ r, picRegister a = some r ∧ memWrite a v s = ppuRegWrite r v s) ∨
    (a = 0x4014#16 ∧ memWrite a v s = oamDma v s) ∨
    (a = 0x4016#16 ∧ memWrite a v s = latchStrobe (v.getLsbD 0) s) ∨
    memWrite a v s = s := by
  by_cases hram : a.toNat ≤ 0x1FFF
  · exact .inl ⟨hram, memWrite_ram a v s hram⟩
  by_cases hpic : a.toNat ≤ 0x3FFF
  · have hr : picRegister a = some (a.toNat % 8) := picRegister_eq_some_iff.mpr ⟨by omega, hpic, rfl⟩
    exact .inr (.inl ⟨_, hr, memWrite_picRegister hr v s⟩)
  by_cases hdma : a = 0x4014#16
  · subst hdma
    exact .inr (.inr (.inl ⟨rfl, by simp [memWrite]⟩))
  by_cases hpad : a = 0x4016#16
  · subst hpad
    exact .inr (.inr (.inr (.inl ⟨rfl, by simp [memWrite]⟩)))
  · exact .inr (.inr (.inr (.inr (memWrite_ignored (by omega) hdma hpad v s))))

/-- A read of work memory through any address up to 0x1FFF (R81). -/
theorem peek_ram {a : Word} (h : a.toNat ≤ 0x1FFF) (s : State) : peek a s = s.ram.read (a.toNat % Config.ramSize) := by
  rw [peek, memRead_ram a s h]

/-- Settles O6: the masked address names the cell that the model's remainder names, and a memory reads back what was written. -/
theorem workMemoryIsMirrored : Obligations.WorkMemoryIsMirrored := by
  intro a v s ha
  rw [and_07FF_toNat]
  refine ⟨memRead_ram a s ha, memWrite_ram a v s ha, fun b hb hcell => ?_, fun b hb hcell => ?_⟩
  · rw [peek_ram hb, memWrite_ram a v s ha, (and_07FF_eq_iff a b).mp hcell, Memory.read_write_same]
  · rw [peek_ram hb, peek_ram hb, memWrite_ram a v s ha, Memory.read_write_other _ _ (mt (and_07FF_eq_iff a b).mpr hcell)]

/-- What a read of register 7 leaves (R376): the buffer is filled from `v`, or from 0x1000 below it in the palette. -/
theorem dataRead_snd (chr : Memory) (mirroring : Mirroring) (g : Picture) : (dataRead chr mirroring g).2 = { g with
    buffer := ppuRead chr mirroring g
      (if (g.v.setWidth 14).toNat < 0x3F00 then g.v.setWidth 14 else g.v.setWidth 14 - 0x1000#14)
    v := advanceV g } := by
  rw [dataRead]
  split <;> rfl

/-- What a read of the first latch leaves (R494). -/
theorem latchRead_state (s : State) : (latchRead s).2 =
    if s.latch.strobe = true then { s with latch := { s.latch with shift := s.buttons, idx := 0 } }
    else if s.latch.idx < 8 then { s with latch := { s.latch with idx := s.latch.idx + 1 } } else s := by
  rw [latchRead]
  split
  · rfl
  · split
    · next h => rw [if_neg (by omega)]
    · next h => rw [if_pos (by omega)]

/-- What a read of the second latch leaves (R497). -/
theorem latch2Read_state (s : State) : (latch2Read s).2 =
    if s.latch.strobe = true then { s with latch := { s.latch with shift2 := s.buttons2, idx2 := 0 } }
    else if s.latch.idx2 < 8 then { s with latch := { s.latch with idx2 := s.latch.idx2 + 1 } } else s := by
  rw [latch2Read]
  split
  · rfl
  · split
    · next h => rw [if_neg (by omega)]
    · next h => rw [if_pos (by omega)]

/-- Settles O7: each row of the table is the read of one register or port, and every other read is pure. -/
theorem readSideEffectTable : Obligations.ReadSideEffectTable := by
  intro a s
  refine ⟨memRead_pure a s, fun hr => ?_, fun hr => ?_, fun ha => ?_, fun ha hpad => ?_⟩
  · rw [memRead_picRegister hr]
    rfl
  · rw [memRead_picRegister hr, ppuRegRead, dataRead_snd]
    rfl
  · rw [ha, memRead_pad1, latchRead_state]
  · rw [ha, memRead_pad2, if_pos hpad, latch2Read_state]

/-- Settles O8: the write-only registers, the addresses between the picture registers and the program window, and the second pad's port
without a pad. -/
theorem undecodedAccesses : Obligations.UndecodedAccesses := by
  intro a v s
  refine ⟨?_, fun ha hpad => ?_, ?_⟩
  · rintro (hr | hrange)
    · obtain ⟨r, hmem, hr⟩ : ∃ r ∈ [0, 1, 3, 5, 6], some r = picRegister a := List.mem_map.mp hr
      rw [memRead_picRegister hr.symm, ppuRegRead_writeOnly hmem]
    · exact memRead_openBus (by omega) (by omega) (by bv_omega) (by bv_omega) s
  · rw [ha, memRead_pad2, hpad]
    rfl
  · rintro (hr | hrange)
    · exact memWrite_picRegister hr v s
    · exact memWrite_ignored (by bv_omega) (by bv_omega) (by bv_omega) v s

/-! What a store at an effective address leaves (O29). -/

/-- Which reads have a side effect depends on the parameters alone. -/
theorem readHasSideEffect_congr {s t : State} (h : t.params = s.params) (a : Word) :
    readHasSideEffect a t = readHasSideEffect a s := by
  rw [readHasSideEffect, h, readHasSideEffect]

/-- From 0x4000 up a read without side effect shows the parameters and the cartridge alone. -/
theorem peek_of_cart {a : Word} {s t : State} (hparams : t.params = s.params) (hcart : t.cart = s.cart) (ha : 0x4000 ≤ a.toNat)
    (hpure : readHasSideEffect a s = false) : peek a t = peek a s := by
  have hpad1 : a ≠ 0x4016#16 := by
    rintro rfl
    simp [readHasSideEffect] at hpure
  by_cases hpad2 : a = 0x4017#16
  · have habsent : s.params.pad2Present = false := by simpa [readHasSideEffect, hpad2] using hpure
    simp [hpad2, peek, memRead_pad2, hparams, habsent]
  by_cases hprg : 0x8000 ≤ a.toNat
  · rw [peek, peek, memRead_prg a t hprg, memRead_prg a s hprg, hcart]
  · rw [peek, peek, memRead_openBus ha (by omega) hpad1 hpad2, memRead_openBus ha (by omega) hpad1 hpad2, hparams]

/-- A bus write leaves every work memory cell but the one its address names. -/
theorem memWrite_ram_otherCell {a ea : Word} (ha : a.toNat ≤ 0x1FFF) (hcell : sameCell a ea = false) (v : Byte) (s : State) :
    (memWrite ea v s).ram.read (a.toNat % Config.ramSize) = s.ram.read (a.toNat % Config.ramSize) := by
  by_cases hea : ea.toNat ≤ 0x1FFF
  · have hne : a.toNat % Config.ramSize ≠ ea.toNat % Config.ramSize := by simpa [sameCell, ha, hea] using hcell
    rw [memWrite_ram ea v s hea, Memory.read_write_other _ _ hne]
  · rw [memWrite_ram_other ea v s (by omega)]

/-- A bus write leaves what every other cell of work memory and every address from 0x4000 up reads as. -/
theorem peek_memWrite_other {a ea : Word} {s : State} (ha : a.toNat ≤ 0x1FFF ∨ 0x4000 ≤ a.toNat)
    (hpure : readHasSideEffect a s = false) (hcell : sameCell a ea = false) (v : Byte) : peek a (memWrite ea v s) = peek a s := by
  rcases ha with ha | ha
  · rw [peek_ram ha, peek_ram ha, memWrite_ram_otherCell ha hcell]
  · exact peek_of_cart (memWrite_params ea v s) (memWrite_cart_field ea v s) ha hpure

/-- Of the picture registers only register 4 writes OAM (R369). -/
theorem ppuRegWrite_oam {r : Nat} (h : r ≠ 4) (d : Byte) (s : State) : (ppuRegWrite r d s).ppu.oam = s.ppu.oam := by
  unfold ppuRegWrite
  split
  case h_4 => exact absurd rfl h
  case h_5 => rw [scrollWrite]; split <;> rfl
  case h_6 => rw [addrWrite]; split <;> rfl
  case h_7 =>
    simp only [dataWrite, ppuWrite]
    split
    · split <;> rfl
    · split <;> rfl
  all_goals rfl

/-- The three memories that register 7 writes (R377, R385). -/
def videoMemories (s : State) : Memory × Memory × Memory := (s.ppu.vram, s.ppu.pal, s.chr)

/-- Of the picture registers only register 7 writes VRAM, the palette and CHR (R377). -/
theorem ppuRegWrite_videoMemories {r : Nat} (h : r ≠ 7) (d : Byte) (s : State) :
    videoMemories (ppuRegWrite r d s) = videoMemories s := by
  unfold ppuRegWrite
  split
  case h_5 => rw [scrollWrite]; split <;> rfl
  case h_6 => rw [addrWrite]; split <;> rfl
  case h_7 => exact absurd rfl h
  all_goals rfl

/-- Sprite DMA leaves the memories of register 7: its reads change none of them (R335). -/
theorem oamDma_videoMemories (page : Byte) (s : State) : videoMemories (oamDma page s) = videoMemories s := by
  rw [oamDma, dmaCopy_snd]
  rfl

/-- A bus write changes OAM through the DMA port and register 4 only (R323). -/
theorem memWrite_oam {a : Word} (hdma : a ≠ 0x4014#16) (hreg : picRegister a ≠ some 4) (v : Byte) (s : State) :
    (memWrite a v s).ppu.oam = s.ppu.oam := by
  obtain ⟨-, h⟩ | ⟨r, hr, h⟩ | ⟨ha, -⟩ | ⟨-, h⟩ | h := memWrite_cases a v s
  · rw [h]
  · rw [h, ppuRegWrite_oam (fun h4 => hreg (h4 ▸ hr))]
  · exact absurd ha hdma
  · rw [h, latchStrobe_snd]
  · rw [h]

/-- A bus write changes VRAM, the palette and CHR through register 7 only (R323). -/
theorem memWrite_videoMemories {a : Word} (hreg : picRegister a ≠ some 7) (v : Byte) (s : State) :
    videoMemories (memWrite a v s) = videoMemories s := by
  obtain ⟨-, h⟩ | ⟨r, hr, h⟩ | ⟨-, h⟩ | ⟨-, h⟩ | h := memWrite_cases a v s
  · rw [h]; rfl
  · rw [h, ppuRegWrite_videoMemories (fun h7 => hreg (h7 ▸ hr))]
  · rw [h, oamDma_videoMemories]
  · rw [h, latchStrobe_snd]; rfl
  · rw [h]

/-- `t` has the storage that one bus write at `ea` leaves of the storage of `s`. -/
def StoresAt (ea : Word) (s t : State) : Prop :=
  ∃ u v, storage u = storage s ∧ storage t = storage (memWrite ea v u)

/-- The stores write once, at their effective address. -/
theorem storesAt_storeReg {r : Reg} {m : AddrMode} {base : Nat} {s t : State} (h : storeReg r m base s = .next t) :
    StoresAt (locate m s).ea s t := by
  simp only [storeReg, locate_st] at h
  cases h
  exact ⟨s, readReg r s, rfl, rfl⟩

/-- The memory forms of INC, DEC and the shifts read their effective address, then write it once. -/
theorem storesAt_modifyMem {f : Byte → Byte → Byte × Byte} {m : AddrMode} {base : Nat} {s t : State}
    (h : modifyMem f m base s = .next t) : StoresAt (locate m s).ea s t := by
  simp only [modifyMem, locate_st] at h
  cases h
  exact ⟨_, _, storage_memRead (locate m s).ea s, rfl⟩

/-- Every form that stores at an effective address makes one bus write there (R123). -/
theorem execForm_storesAt {f : Form} {m : AddrMode} {s t : State}
    (hf : f ∈ [.sta m, .stx m, .sty m, .inc m, .dec m, .asl (.mem m), .lsr (.mem m), .rol (.mem m), .ror (.mem m)])
    (h : execForm f s = .next t) : StoresAt (locate m s).ea s t := by
  simp only [List.mem_cons, List.not_mem_nil, or_false] at hf
  rcases hf with rfl | rfl | rfl | hf
  iterate 3 exact storesAt_storeReg h
  rcases hf with rfl | rfl | rfl | rfl | rfl | rfl <;> exact storesAt_modifyMem h

/-- Settles O29: the instruction is one bus write at its effective address, and each clause says what that write leaves. -/
theorem storingFrame : Obligations.StoringFrame := by
  intro i s t m hf h ea
  obtain ⟨u, v, hu, ht⟩ := execForm_storesAt hf (exec_eq i s ▸ h)
  have hparams : u.params = s.params := (congrArg State.params hu :)
  refine ⟨fun a ha hpure hcell => ?_, fun k => ?_, fun hdma hreg k => ?_, fun hreg k => ?_, fun row col => ?_⟩
  · have hpure' : readHasSideEffect a u = false := readHasSideEffect_congr hparams a ▸ hpure
    calc peek a t = peek a (memWrite ea v u) :=
          peek_of_storage ht (readHasSideEffect_congr (memWrite_params ea v u) a ▸ hpure')
      _ = peek a u := peek_memWrite_other ha hpure' hcell v
      _ = peek a s := peek_of_storage hu hpure
  · have hcart : t.cart = s.cart := calc
      t.cart = (memWrite ea v u).cart := (congrArg State.cart ht :)
      _ = u.cart := memWrite_cart_field ea v u
      _ = s.cart := (congrArg State.cart hu :)
    rw [hcart]
  · have hoam : t.ppu.oam = s.ppu.oam := calc
      t.ppu.oam = (memWrite ea v u).ppu.oam := (congrArg (·.ppu.oam) ht :)
      _ = u.ppu.oam := memWrite_oam hdma hreg v u
      _ = s.ppu.oam := (congrArg (·.ppu.oam) hu :)
    rw [hoam]
  · have hvideo : videoMemories t = videoMemories s := calc
      videoMemories t = videoMemories (memWrite ea v u) := (congrArg videoMemories ht :)
      _ = videoMemories u := memWrite_videoMemories hreg v u
      _ = videoMemories s := (congrArg videoMemories hu :)
    simp only [videoMemories, Prod.mk.injEq] at hvideo
    obtain ⟨hvram, hpal, hchr⟩ := hvideo
    rw [hvram, hpal, hchr]
    exact ⟨rfl, rfl, rfl⟩
  · have hfb : t.ppu.fb = s.ppu.fb := calc
      t.ppu.fb = (memWrite ea v u).ppu.fb := (congrArg (·.ppu.fb) ht :)
      _ = u.ppu.fb := memWrite_fb ea v u
      _ = s.ppu.fb := (congrArg (·.ppu.fb) hu :)
    rw [hfb]

/-! What no instruction moves (O31). -/

/-- Settles O31: a documented instruction is made of bus accesses and register writes, none of which moves the picture. -/
theorem instructionsDoNotMoveThePicture : Obligations.InstructionsDoNotMoveThePicture := by
  intro i s t hi h
  have hx := exec_fixed h hi
  exact ⟨hx.scanline, hx.dot, hx.frameCount, hx.cyc, fun row col => by rw [hx.fb], hx.spriteZeroHit, hx.spriteOverflow, hx.sprites,
    hx.bgLo, hx.bgHi, hx.atLo, hx.atHi, hx.ntLatch, hx.atLatch, hx.patLoLatch, hx.patHiLatch, hx.irqRequest, hx.fault,
    hx.faultOpcode, hx.faultPc, hx.cart, hx.params, hx.buttons, hx.buttons2⟩

end Sys2Proof.Machine

namespace Sys2Proof.Machine

/-! The opcode map (30_encoding.md R120, R141, R143). An opcode byte is one of the 105 of R143 or stands in a row of R141, so what holds of
both holds of every instruction that the decoder builds. -/

/-- The rows of R141 that O2 lists. -/
def opcodeRows (b1 b2 : Byte) : List OpcodeRow :=
  loadRows b1 b2 ++ storeRows b1 b2 ++ impliedRows ++ addRows b1 b2 ++ compareRows b1 b2 ++ modifyRows b1 b2 ++ logicRows b1 b2 ++
    shiftRows b1 b2 ++ controlRows b1 b2

/-- Each row, computed: its columns, and the bytes of the instruction that its opcode selects. The encoder takes a 16-bit operand apart
into the two bytes that the decoder put together. -/
theorem opcodeRow_computed (b1 b2 : Byte) : ∀ row ∈ opcodeRows b1 b2,
    (assemble row.1 b1 b2).form = row.2.2.2 ∧ instrLength row.1 = row.2.1 ∧ baseCycles row.2.2.2 = row.2.2.1 ∧
      (assemble row.1 b1 b2).wf = true ∧ encode (assemble row.1 b1 b2) =
        [row.1, if row.2.1 = 3 then loByte (wordOf b1 b2) else b1, hiByte (wordOf b1 b2)].take row.2.1 := by
  rw [← List.forall_iff_forall_mem]
  simp only [opcodeRows, loadRows, storeRows, impliedRows, addRows, compareRows, modifyRows, logicRows, shiftRows, controlRows,
    List.forall_append, List.Forall]
  and_intros
  all_goals rfl

/-- Settles O2: the columns of each row, computed. -/
theorem opcodeTableRows : Obligations.OpcodeTableRows := by
  intro b1 b2 row hrow
  obtain ⟨hform, hlength, hcycles, -⟩ := opcodeRow_computed b1 b2 row hrow
  exact ⟨hform, hlength, hcycles⟩

/-- The opcodes of the rows do not depend on the operand bytes. -/
theorem opcodes_eq (b1 b2 : Byte) : (opcodeRows b1 b2).map Prod.fst = (opcodeRows 0#8 0#8).map Prod.fst := by
  simp only [opcodeRows, loadRows, storeRows, impliedRows, addRows, compareRows, modifyRows, logicRows, shiftRows, controlRows,
    List.map_append, List.map_cons, List.map_nil]

/-- Every byte is in the list of R143 or in the table of R141. -/
theorem undocumented_or_row (op b1 b2 : Byte) : op ∈ undocumentedBytes ∨ ∃ row ∈ opcodeRows b1 b2, row.1 = op := by
  have hall : ∀ op : Byte, (undocumentedBytes ++ (opcodeRows 0#8 0#8).map Prod.fst).any (op.toNat == ·.toNat) = true := by
    decide +kernel
  obtain ⟨b, hb, hop⟩ := List.any_eq_true.mp (hall op)
  rw [← BitVec.eq_of_toNat_eq (eq_of_beq hop), ← opcodes_eq b1 b2, List.mem_append, List.mem_map] at hb
  exact hb

theorem assemble_undocumented {op : Byte} (h : op ∈ undocumentedBytes) (b1 b2 : Byte) : assemble op b1 b2 = .undocumented op := by
  have hall : undocumentedBytes.map (assemble · b1 b2) = undocumentedBytes.map .undocumented := rfl
  exact List.map_inj_left.mp hall op h

theorem instrLength_undocumented {op : Byte} (h : op ∈ undocumentedBytes) : instrLength op = 1 := by
  have hall : undocumentedBytes.map instrLength = undocumentedBytes.map (fun _ => 1) := rfl
  exact List.map_inj_left.mp hall op h

theorem wf_undocumented {op : Byte} : (Instr.undocumented op).wf = true ↔ op ∈ undocumentedBytes := List.contains_iff_mem

/-- Whatever an opcode byte selects is well formed (R143, R144). -/
theorem wf_assemble (op b1 b2 : Byte) : (assemble op b1 b2).wf = true := by
  obtain hop | ⟨row, hrow, rfl⟩ := undocumented_or_row op b1 b2
  · rw [assemble_undocumented hop, wf_undocumented]
    exact hop
  · obtain ⟨-, -, -, hwf, -⟩ := opcodeRow_computed b1 b2 row hrow
    exact hwf

/-- What three bytes select is encoded by as many of them as the opcode's length says (R120). -/
theorem encode_assemble (op b1 b2 : Byte) : encode (assemble op b1 b2) = [op, b1, b2].take (instrLength op) := by
  obtain hop | ⟨row, hrow, rfl⟩ := undocumented_or_row op b1 b2
  · rw [assemble_undocumented hop, instrLength_undocumented hop]
    rfl
  · obtain ⟨-, hlength, -, -, hbytes⟩ := opcodeRow_computed b1 b2 row hrow
    rw [hbytes, hlength, loByte_wordOf, hiByte_wordOf, ite_self]

theorem length_encode_assemble (op b1 b2 : Byte) : (encode (assemble op b1 b2)).length = instrLength op := by
  rw [encode_assemble]
  rcases instrLength_cases op with hlen | hlen | hlen <;> rw [hlen] <;> rfl

/-- Settles O3: an undocumented term is encoded by its own byte, and it is well formed only when R143 lists that byte. -/
theorem undocumentedBytesSelectNoInstruction : Obligations.UndocumentedBytesSelectNoInstruction := by
  refine ⟨fun op b1 b2 hop => ⟨assemble_undocumented hop b1 b2, instrLength_undocumented hop⟩, fun op b1 b2 o h => ?_, rfl,
    by decide +kernel⟩
  have hwf := wf_assemble op b1 b2
  have hbytes := encode_assemble op b1 b2
  rw [h] at hwf hbytes
  have ho : o = op := by
    rcases instrLength_cases op with hlen | hlen | hlen <;> rw [hlen] at hbytes <;> injection hbytes
  exact ⟨ho, ho ▸ wf_undocumented.mp hwf⟩

/-! Decoding and encoding (R120, R145). -/

/-- The decoder on an opcode with the operand bytes its length asks for, and anything after them. -/
theorem decode_append {op : Byte} {operands : List Byte} (h : (op :: operands).length = instrLength op) (rest : List Byte) :
    decode (op :: operands ++ rest) = .ok (assemble op (operands.getD 0 0#8) (operands.getD 1 0#8), rest) := by
  match operands with
  | [] | [_] | [_, _] => simp [decode, ← h]
  | _ :: _ :: _ :: _ =>
    have := instrLength_cases op
    simp only [List.length_cons] at h
    omega

/-- The encoding of a well-formed instruction is an opcode and the operand bytes it asks for, and they select the instruction. -/
theorem encode_shape {i : Instr} (hi : i.wf = true) : ∃ op operands, encode i = op :: operands ∧
    (op :: operands).length = instrLength op ∧ assemble op (operands.getD 0 0#8) (operands.getD 1 0#8) = i := by
  cases i with
  | undocumented op =>
    have hop := wf_undocumented.mp hi
    exact ⟨op, [], rfl, (instrLength_undocumented hop).symm, assemble_undocumented hop _ _⟩
  | ldaAbs w | ldaAbx w | ldaAby w | ldxAbs w | ldxAby w | ldyAbs w | ldyAbx w | staAbs w | staAbx w | staAby w | stxAbs w | styAbs w
  | adcAbs w | adcAbx w | adcAby w | sbcAbs w | sbcAbx w | sbcAby w | cmpAbs w | cmpAbx w | cmpAby w | cpxAbs w | cpyAbs w | incAbs w
  | incAbx w | decAbs w | decAbx w | andAbs w | andAbx w | andAby w | oraAbs w | oraAbx w | oraAby w | eorAbs w | eorAbx w | eorAby w
  | bitAbs w | aslAbs w | aslAbx w | lsrAbs w | lsrAbx w | rolAbs w | rolAbx w | rorAbs w | rorAbx w | jmpAbs w | jmpInd w | jsr w =>
    exact ⟨_, _, rfl, rfl, congrArg _ (wordOf_bytes w)⟩
  | _ => exact ⟨_, _, rfl, rfl, rfl⟩

/-- Settles O4: the decoder takes the bytes of the encoding, which select the instruction, and leaves the others. -/
theorem decodeOfEncode : Obligations.DecodeOfEncode := by
  intro i rest hi
  obtain ⟨op, operands, hbytes, hlength, hselect⟩ := encode_shape hi
  rw [hbytes, decode_append hlength, hselect]

/-- What decodes is selected by an opcode and two bytes, and the bytes read are its encoding. -/
theorem decode_inv {bs rest : List Byte} {i : Instr} (h : decode bs = .ok (i, rest)) :
    ∃ op b1 b2, i = assemble op b1 b2 ∧ bs = encode i ++ rest := by
  cases bs with
  | nil => cases h
  | cons op tail =>
    simp only [decode] at h
    split at h
    · next b1 b2 _ hlen => cases h; exact ⟨op, b1, b2, rfl, by rw [encode_assemble, hlen]; rfl⟩
    · next b1 _ hlen => cases h; exact ⟨op, b1, 0#8, rfl, by rw [encode_assemble, hlen]; rfl⟩
    · next hlen => cases h; exact ⟨op, 0#8, 0#8, rfl, by rw [encode_assemble, hlen]; rfl⟩
    · cases h

/-- Settles O5: what decodes is selected by its bytes, so it is well formed and they are its encoding. -/
theorem encodeOfDecode : Obligations.EncodeOfDecode := by
  intro bs rest i h
  obtain ⟨op, b1, b2, rfl, rfl⟩ := decode_inv h
  exact ⟨wf_assemble op b1 b2, rfl⟩

/-- Settles O1: the decoder, run on each of the sixteen byte strings. -/
theorem knownWordsDecode : Obligations.KnownWordsDecode :=
  ⟨rfl, rfl, rfl, rfl, rfl, rfl, rfl, rfl, rfl, rfl, rfl, rfl, rfl, rfl, rfl, rfl⟩

/-! Operands (R123 to R134). -/

theorem hiByte_toNat (w : Word) : (hiByte w).toNat = w.toNat / 256 := by
  have hw : w.toNat = (hiByte w).toNat * 256 + (loByte w).toNat := by rw [← wordOf_toNat, wordOf_bytes]
  have hlo := (loByte w).isLt
  omega

/-- Two words are on different pages when their quotients by the page size differ. -/
theorem hiByte_bne (v w : Word) : (hiByte v != hiByte w) = decide (v.toNat / 256 ≠ w.toNat / 256) := by
  rw [Bool.eq_iff_iff, bne_iff_ne, decide_eq_true_iff, ← hiByte_toNat, ← hiByte_toNat, ne_eq, ne_eq, BitVec.toNat_inj]

/-- An indexed address, and `crossed` by arithmetic (R131, R132, R134). -/
theorem indexed_eq (base : Word) (index : Byte) (s : State) : indexed base index s =
    ⟨base + index.setWidth 16, decide ((base + index.setWidth 16).toNat / 256 ≠ base.toNat / 256), s⟩ := by
  simp only [indexed, hiByte_bne, zext16]

/-- Settles O10: the indexed modes by `indexed_eq`, the pointers of the indirect ones by `zeroPagePointer_eq`. -/
theorem operandForms : Obligations.OperandForms := by
  intro d8 a16 m s
  refine ⟨rfl, rfl, rfl, rfl, indexed_eq a16 s.x s, indexed_eq a16 s.y s, ?_, ?_, readSource_imm s d8, readSource_mem s m⟩
  · rw [locate, zeroPagePointer_eq]
  · rw [locate, zeroPagePointer_eq, indexed_eq]

/-! Fetching through the bus (R121, R280). -/

/-- Fetching runs as many fetches as the instruction has bytes, where the instruction is what the next three bytes decode to. -/
theorem fetchInstruction_of_decode {s : State} {i : Instr} {rest : List Byte}
    (h : decode [(fetch8 s).1, (fetch8 (fetched 1 s)).1, (fetch8 (fetched 2 s)).1] = .ok (i, rest)) :
    fetchInstruction s = (i, fetched (encode i).length s) := by
  rw [decode_three] at h
  rw [fetchInstruction_eq]
  rcases instrLength_cases (fetch8 s).1 with hlen | hlen | hlen
  all_goals
    rw [hlen] at h ⊢
    cases h
    rw [length_encode_assemble, hlen]
    rfl

/-- Settles O35: with no interrupt to take, the step executes what it fetched, and `fetchInstruction_of_decode` says what that is. -/
theorem stepFetchesThroughTheBus : Obligations.StepFetchesThroughTheBus := by
  refine ⟨fetch8_eq, ?_⟩
  intro s i rest hfault hnmi hirq after hdecode
  obtain ⟨t, hexec, hstep⟩ := step_instr hfault (poll_none hnmi hirq)
  rw [fetchInstruction_of_decode (s := takeStall s) hdecode] at hexec
  exact ⟨t, hexec, hstep⟩

end Sys2Proof.Machine

namespace Sys2Proof.Machine

/-! The loads, the stores and the transfers (R160 to R171): the operation that the rows of a family share, then the rows. -/

/-- A load leaves the state after its operand's read, but for its register, P and the charge. -/
theorem loadReg_next (r : Reg) (src : Source) (base : Nat) (s : State) :
    ∃ q, loadReg r src base s = .next { writeReg r (readSource src s).val (readSource src s).st with
        p := q, rem := base + crossPenalty (readSource src s).crossed } ∧
      FlagsAre s.p q [(.z, (readSource src s).val == 0#8), (.n, (readSource src s).val.getLsbD 7)] := by
  refine ⟨setZN (readSource src s).val (readSource src s).st.p, rfl, ?_⟩
  rw [readSource_p]
  exact flagsAre_setZN _ _

/-- A store is one bus write: the address is computed without a change, so the register is that of the state before. -/
theorem storeReg_next (r : Reg) (m : AddrMode) (base : Nat) (s : State) :
    storeReg r m base s = .next { memWrite (locate m s).ea (readReg r s) s with rem := base } := by
  simp only [storeReg, locate_st, finish]

/-- A transfer that sets flags leaves the state as it was, but for its destination, P and the charge. -/
theorem transferFlags_next (src dst : Reg) (base : Nat) (s : State) :
    ∃ q, transferFlags src dst base s = .next { writeReg dst (readReg src s) s with p := q, rem := base } ∧
      FlagsAre s.p q [(.z, readReg src s == 0#8), (.n, (readReg src s).getLsbD 7)] :=
  ⟨_, rfl, flagsAre_setZN _ _⟩

/-- Settles O11: each of the three mnemonics is the load of its register, with the base cycles of its mode. -/
theorem loadInstructions : Obligations.LoadInstructions := by
  intro i s src r h
  have hload : exec i s = loadReg r src (baseCycles i.form) s := by
    rw [exec_eq]
    rcases h with ⟨hf, rfl⟩ | ⟨hf, rfl⟩ | ⟨hf, rfl⟩ <;> rw [hf] <;> rfl
  rw [hload]
  exact loadReg_next r src (baseCycles i.form) s

/-- Settles O12: each of the three mnemonics is the store of its register, with the base cycles of its mode. -/
theorem storeInstructions : Obligations.StoreInstructions := by
  intro i s m v h
  rw [exec_eq]
  rcases h with ⟨hf, rfl⟩ | ⟨hf, rfl⟩ | ⟨hf, rfl⟩ <;> rw [hf]
  · exact storeReg_next .a m _ s
  · exact storeReg_next .x m _ s
  · exact storeReg_next .y m _ s

/-- Settles O13: five of the mnemonics are the transfer that sets flags, TXS the one that does not. -/
theorem transferInstructions : Obligations.TransferInstructions := by
  intro s
  refine ⟨fun i src dst h => ?_, rfl⟩
  have htransfer : exec i s = transferFlags src dst 2 s := by
    simp only [List.mem_cons, List.not_mem_nil, or_false, Prod.mk.injEq] at h
    rcases h with ⟨rfl, rfl, rfl⟩ | ⟨rfl, rfl, rfl⟩ | ⟨rfl, rfl, rfl⟩ | ⟨rfl, rfl, rfl⟩ | ⟨rfl, rfl, rfl⟩ <;> rfl
  rw [htransfer]
  exact transferFlags_next src dst 2 s

end Sys2Proof.Machine

namespace Sys2Proof.Machine

/-! The stack instructions (R182 to R185): a push or a pull in closed form, and the status byte that goes over the stack. -/

/-- The pushed status is P but for B and U (R27). -/
theorem flagsAre_pushedStatus (brk : Bool) (p : Byte) : FlagsAre p (pushedStatus brk p) [(.b, brk), (.u, true)] := by
  intro f
  rw [getFlag_pushedStatus]
  cases f <;> rfl

/-- The pulled status is the byte from the stack but for B and U (R27). -/
theorem flagsAre_pulledStatus (m : Byte) : FlagsAre m (pulledStatus m) [(.b, false), (.u, true)] := by
  intro f
  rw [getFlag_pulledStatus]
  cases f <;> rfl

theorem pushByte_next (v : Byte) (base : Nat) (s : State) : pushByte v base s =
    .next { s with ram := s.ram.write (stackCell s.sp) v, sp := s.sp - 1#8, rem := base } := by
  rw [pushByte, push_eq, finish]

theorem pullAccumulator_next (base : Nat) (s : State) : pullAccumulator base s =
    .next { s with
      a := s.ram.read (stackCell (s.sp + 1#8)), sp := s.sp + 1#8
      p := setZN (s.ram.read (stackCell (s.sp + 1#8))) s.p, rem := base } := by
  simp only [pullAccumulator, pull_eq, writeReg, setP, finish]

theorem pullStatus_next (base : Nat) (s : State) : pullStatus base s =
    .next { s with sp := s.sp + 1#8, p := pulledStatus (s.ram.read (stackCell (s.sp + 1#8))), rem := base } := by
  simp only [pullStatus, pull_eq, setP, finish]

/-- Settles O14: PHA and PHP push one byte, PLA and PLP pull one, each in closed form. -/
theorem stackInstructions : Obligations.StackInstructions := by
  intro s m
  exact ⟨pushByte_next s.a 3 s, ⟨_, pushByte_next (pushedStatus true s.p) 3 s, flagsAre_pushedStatus true s.p⟩,
    ⟨_, pullAccumulator_next 4 s, flagsAre_setZN m s.p⟩, ⟨_, pullStatus_next 4 s, flagsAre_pulledStatus m⟩⟩

/-! What the instructions that push leave (O30): they are pushes, and changes of P, PC and the charge. -/

/-- `t` is `s` after `n` pushes, but for P, PC and the charge. -/
structure Pushed (n : Nat) (s t : State) : Prop where
  sp : t.sp = s.sp - BitVec.ofNat 8 n
  ram : ∀ c, (∀ k < n, c ≠ stackCell (s.sp - BitVec.ofNat 8 k)) → t.ram.read c = s.ram.read c
  rest : { t with ram := s.ram, sp := s.sp, p := s.p, pc := s.pc, rem := s.rem } = s

section
variable {n : Nat} {s t : State}

theorem Pushed.refl (s : State) : Pushed 0 s s := ⟨(BitVec.sub_zero s.sp).symm, fun _ _ => rfl, rfl⟩

theorem Pushed.setP (h : Pushed n s t) (p : Byte) : Pushed n s (Machine.setP p t) := ⟨h.sp, h.ram, h.rest⟩

theorem Pushed.setPc (h : Pushed n s t) (w : Word) : Pushed n s (Machine.setPc w t) := ⟨h.sp, h.ram, h.rest⟩

theorem Pushed.finish {u : State} {cost : Nat} (h : Pushed n s u) (e : Machine.finish cost u = .next t) : Pushed n s t := by
  cases e
  exact ⟨h.sp, h.ram, h.rest⟩

/-- One push more writes the cell that S names after the pushes before it (R180). -/
theorem Pushed.push (h : Pushed n s t) (v : Byte) : Pushed (n + 1) s (Machine.push v t) := by
  rw [push_eq]
  refine ⟨?_, fun c hc => ?_, h.rest⟩
  · simp only [h.sp, BitVec.sub_sub, BitVec.ofNat_add]
  · have hcell : c ≠ stackCell t.sp := h.sp ▸ hc n (Nat.lt_succ_self n)
    exact (Memory.read_write_other _ v hcell).trans (h.ram c fun k hk => hc k (Nat.lt_succ_of_lt hk))

theorem Pushed.push16 (h : Pushed n s t) (w : Word) : Pushed (n + 2) s (Machine.push16 w t) := (h.push _).push _

/-- An exception pushes three bytes; its vector lies in the program window, so reading it changes nothing (R294). -/
theorem Pushed.takeException (h : Pushed n s t) {vector : Word} (brk : Bool) (h1 : 0x8000 ≤ vector.toNat)
    (h2 : 0x8000 ≤ (vector + 1#16).toNat) : Pushed (n + 3) s (Machine.takeException vector brk t) := by
  simp only [Machine.takeException, memRead16_prg _ _ h1 h2]
  exact (((h.push16 t.pc).push _).setP _).setPc _

/-- An address of work memory names the cell of a stack pointer exactly when its own cell has that number (R81, R180). -/
theorem sameCell_stack {a : Word} (ha : a.toNat ≤ 0x1FFF) (sp : Byte) :
    sameCell a (wordOf sp 0x01#8) = decide (a.toNat % Config.ramSize = stackCell sp) := by
  have hcell : (wordOf sp 0x01#8).toNat = stackCell sp := wordOf_toNat sp 0x01#8
  have hlt := stackCell_lt sp
  have hsp : stackCell sp ≤ 0x1FFF := by omega
  simp [sameCell, hcell, ha, hsp, stackCell_mod]

/-- Above work memory a read does not consult what `Pushed` leaves open. -/
theorem peek_aboveRam {a : Word} (ha : 0x2000 ≤ a.toNat) (ram : Memory) (sp p : Byte) (pc : Word) (rem : Nat) (s : State) :
    peek a { s with ram := ram, sp := sp, p := p, pc := pc, rem := rem } = peek a s := by
  have hram : ¬ a.toNat ≤ 0x1FFF := by omega
  simp only [peek, memRead, if_neg hram, latchRead, latch2Read, apply_ite Prod.fst]
  split
  · unfold ppuRegRead
    split <;> rfl
  · rfl

/-- Every address reads as before but those that name a pushed cell. -/
theorem Pushed.peek (h : Pushed n s t) {a : Word}
    (ha : ∀ k < n, sameCell a (wordOf (s.sp - BitVec.ofNat 8 k) 0x01#8) = false) : Machine.peek a t = Machine.peek a s := by
  by_cases hram : a.toNat ≤ 0x1FFF
  · rw [peek_ram hram, peek_ram hram]
    exact h.ram _ fun k hk => of_decide_eq_false (sameCell_stack hram _ ▸ ha k hk)
  · rw [← peek_aboveRam (by omega) s.ram s.sp s.p s.pc s.rem t, h.rest]

end

/-- The instructions of O30, each with the number of bytes it pushes (R182, R183, R232, R243). -/
theorem exec_pushed {i : Instr} {s t : State} {n : Nat}
    (hi : (i = .pha ∧ n = 1) ∨ (i = .php ∧ n = 1) ∨ (∃ a16, i = .jsr a16 ∧ n = 2) ∨ (i = .brk ∧ n = 3))
    (h : exec i s = .next t) : Pushed n s t := by
  have start : Pushed 0 s s := .refl s
  obtain ⟨rfl, rfl⟩ | ⟨rfl, rfl⟩ | ⟨a16, rfl, rfl⟩ | ⟨rfl, rfl⟩ := hi
  · exact (start.push s.a).finish h
  · exact (start.push (pushedStatus true s.p)).finish h
  · exact ((start.push16 (s.pc - 1#16)).setPc a16).finish h
  · exact ((start.setPc (s.pc + 1#16)).takeException true (by decide) (by decide)).finish h

/-- Settles O30: the instruction is its pushes, so it changes the cells they write, S, P, PC and the charge. -/
theorem stackFrame : Obligations.StackFrame := by
  intro i s t n hi h
  have hp := exec_pushed hi h
  exact ⟨fun _ => hp.peek, hp.sp, (congrArg State.a hp.rest :), (congrArg State.x hp.rest :), (congrArg State.y hp.rest :),
    (congrArg State.ppu hp.rest :), (congrArg State.chr hp.rest :), (congrArg State.latch hp.rest :),
    (congrArg State.nmiRequest hp.rest :), (congrArg State.dmaStall hp.rest :)⟩

end Sys2Proof.Machine

namespace Sys2Proof.Machine

/-! Arithmetic (R191 to R201): the operations that the rows of a family share, in closed form, then what each does to the result and P. -/

/-- An operation on A leaves the state after its operand's read, but for A, P and the charge. -/
theorem accumulate_next (f : Byte → Byte → Byte → Byte × Byte) (src : Source) (base : Nat) (s : State) :
    accumulate f src base s = .next { (readSource src s).st with
      a := (f s.a (readSource src s).val s.p).1, p := (f s.a (readSource src s).val s.p).2
      rem := base + crossPenalty (readSource src s).crossed } := by
  simp only [accumulate, readSource_a, readSource_p, writeReg, setP, finish]

/-- A compare leaves the state after its operand's read, but for P and the charge. -/
theorem compareReg_next (r : Reg) (src : Source) (base : Nat) (s : State) :
    compareReg r src base s = .next { (readSource src s).st with
      p := compareFlags (readReg r s) (readSource src s).val s.p
      rem := base + crossPenalty (readSource src s).crossed } := by
  simp only [compareReg, readReg_readSource, readSource_p, setP, finish]

/-- A read-modify-write is one read and one write of the effective address, then P and the charge. -/
theorem modifyMem_next (f : Byte → Byte → Byte × Byte) (m : AddrMode) (base : Nat) (s : State) :
    modifyMem f m base s = .next {
      memWrite (locate m s).ea (f (memRead (locate m s).ea s).1 s.p).1 (memRead (locate m s).ea s).2 with
        p := (f (memRead (locate m s).ea s).1 s.p).2, rem := base } := by
  simp only [modifyMem, locate_st, memRead_p, setP, finish]

/-- The same on a register: the state as it was, but for the register, P and the charge. -/
theorem modifyReg_next (f : Byte → Byte → Byte × Byte) (r : Reg) (base : Nat) (s : State) :
    modifyReg f r base s = .next { writeReg r (f (readReg r s) s.p).1 s with p := (f (readReg r s) s.p).2, rem := base } := rfl

theorem carryIn_le_one (p : Byte) : carryIn p ≤ 1 := by
  unfold carryIn
  split <;> omega

/-- The mask of R191 tests bit 7, the sign. -/
theorem and_signBit_bne (x : Byte) : (x &&& 0x80#8 != 0#8) = x.msb := by
  have h : x &&& 0x80#8 = if x.getLsbD 7 then 0x80#8 else 0#8 := BitVec.and_twoPow x 7
  rw [h, BitVec.msb_eq_getLsbD_last]
  cases x.getLsbD 7 <;> rfl

/-- The signed sum leaves -128 to 127 exactly when the sign of the result differs from the signs of both operands (R191). -/
theorem signMask_eq_signedOverflow (a m : Byte) {c : Nat} (hc : c ≤ 1) :
    (((a ^^^ BitVec.ofNat 8 (a.toNat + m.toNat + c)) &&& (m ^^^ BitVec.ofNat 8 (a.toNat + m.toNat + c)) &&& 0x80#8) != 0#8) =
      decide (a.toInt + m.toInt + (c : Int) < -128 ∨ 127 < a.toInt + m.toInt + (c : Int)) := by
  have ha := a.isLt
  have hm := m.isLt
  rw [and_signBit_bne, BitVec.msb_and, BitVec.msb_xor, BitVec.msb_xor, Bool.eq_iff_iff]
  simp only [BitVec.msb_eq_decide, BitVec.toInt_eq_toNat_cond, BitVec.toNat_ofNat, Bool.and_eq_true, bne_iff_ne, ne_eq,
    decide_eq_decide, decide_eq_true_eq]
  omega

/-- ADC's status with V as the signed overflow (R191). -/
theorem flagsAre_adcByte_signed (a m p : Byte) : FlagsAre p (adcByte a m p).2
    [(.z, (adcByte a m p).1 == 0#8), (.n, (adcByte a m p).1.getLsbD 7), (.c, decide (0xFF < a.toNat + m.toNat + carryIn p)),
     (.v, decide (a.toInt + m.toInt + (carryIn p : Int) < -128 ∨ 127 < a.toInt + m.toInt + (carryIn p : Int)))] := by
  intro f
  rw [← signMask_eq_signedOverflow a m (carryIn_le_one p), flagsAre_adcByte a m p f]
  cases f <;> rfl

/-- Settles O15: each form is the accumulate of `adcByte`, with the base cycles of its mode. -/
theorem addWithCarry : Obligations.AddWithCarry := by
  intro i s src hi o c t r signed
  have hadc : exec i s = accumulate adcByte src (baseCycles i.form) s := by
    rw [exec_eq, hi]
    rfl
  rw [hadc]
  exact ⟨_, accumulate_next _ _ _ _, flagsAre_adcByte_signed s.a o.val s.p, flagsAre_adcByte s.a o.val s.p .v⟩

/-! SBC adds the complement, so its sum is the difference with the borrow, `1 - c` (R192). -/

theorem complement_toNat (m : Byte) : (m ^^^ 0xFF#8).toNat = 255 - m.toNat := by
  have h : m ^^^ 0xFF#8 = ~~~m := BitVec.xor_allOnes
  rw [h, BitVec.toNat_not]

theorem complement_toInt (m : Byte) : (m ^^^ 0xFF#8).toInt = -1 - m.toInt := by
  have hm := m.isLt
  rw [BitVec.toInt_eq_toNat_cond, BitVec.toInt_eq_toNat_cond, complement_toNat]
  omega

/-- The sum with the complement is the difference with the borrow, modulo 256. -/
theorem sub_borrow_eq (a m : Byte) {c : Nat} (hc : c ≤ 1) :
    a - m - BitVec.ofNat 8 (1 - c) = BitVec.ofNat 8 (a.toNat + (m ^^^ 0xFF#8).toNat + c) := by
  have hm := m.isLt
  apply BitVec.eq_of_toNat_eq
  rw [complement_toNat]
  simp only [BitVec.toNat_sub, BitVec.toNat_ofNat]
  omega

/-- The sum with the complement carries exactly when the difference needs no borrow. -/
theorem carry_complement_iff (a m : Byte) {c : Nat} (hc : c ≤ 1) :
    0xFF < a.toNat + (m ^^^ 0xFF#8).toNat + c ↔ m.toNat + (1 - c) ≤ a.toNat := by
  have hm := m.isLt
  rw [complement_toNat]
  omega

theorem signed_complement (a m : Byte) (c : Int) : a.toInt + (m ^^^ 0xFF#8).toInt + c = a.toInt - m.toInt - (1 - c) := by
  rw [complement_toInt]
  omega

/-- SBC's status, from the difference with the borrow (R192). -/
theorem flagsAre_sbcByte_signed (a m p : Byte) : FlagsAre p (sbcByte a m p).2
    [(.z, (sbcByte a m p).1 == 0#8), (.n, (sbcByte a m p).1.getLsbD 7), (.c, decide (m.toNat + (1 - carryIn p) ≤ a.toNat)),
     (.v, decide (a.toInt - m.toInt - (1 - (carryIn p : Int)) < -128 ∨ 127 < a.toInt - m.toInt - (1 - (carryIn p : Int))))] := by
  have h := flagsAre_adcByte_signed a (m ^^^ 0xFF#8) p
  simp only [carry_complement_iff a m (carryIn_le_one p), signed_complement] at h
  exact h

/-- Settles O16: each form is the accumulate of `sbcByte`, which is `adcByte` of the complement. -/
theorem subtractWithBorrow : Obligations.SubtractWithBorrow := by
  intro i s src hi o c n r signed
  have hsbc : exec i s = accumulate sbcByte src (baseCycles i.form) s := by
    rw [exec_eq, hi]
    rfl
  have hr : r = (sbcByte s.a o.val s.p).1 := sub_borrow_eq s.a o.val (carryIn_le_one s.p)
  rw [hsbc, hr]
  exact ⟨_, accumulate_next _ _ _ _, rfl, flagsAre_sbcByte_signed s.a o.val s.p, flagsAre_adcByte s.a n s.p .v⟩

theorem sub_beq_zero (r m : Byte) : (r - m == 0#8) = decide (r = m) := by
  rw [beq_eq_decide, decide_eq_decide]
  exact sub_eq_zero

/-- Settles O17: each of the three mnemonics is the compare of its register, with the base cycles of its mode. -/
theorem compareInstructions : Obligations.CompareInstructions := by
  intro i s src reg h o
  obtain ⟨r, hcompare, rfl⟩ : ∃ r, exec i s = compareReg r src (baseCycles i.form) s ∧ reg = readReg r s := by
    rw [exec_eq]
    rcases h with ⟨hf, rfl⟩ | ⟨hf, rfl⟩ | ⟨hf, rfl⟩ <;> rw [hf]
    · exact ⟨.a, rfl, rfl⟩
    · exact ⟨.x, rfl, rfl⟩
    · exact ⟨.y, rfl, rfl⟩
  rw [hcompare, ← sub_beq_zero]
  exact ⟨_, compareReg_next _ _ _ _, flagsAre_compareFlags _ _ _⟩

/-- What INC and DEC have in common: a number is added modulo 256, and Z and N come from the sum (R196 to R201). -/
def addByte (delta m p : Byte) : Byte × Byte := (m + delta, setZN (m + delta) p)

theorem incByte_eq : incByte = addByte 1#8 := rfl

theorem decByte_eq : decByte = addByte 0xFF#8 := by
  funext m p
  have h : m - 1#8 = m + 0xFF#8 := BitVec.sub_eq_add_neg m 1#8
  rw [decByte, addByte, h]

/-- Settles O18: every form adds 1 or, for a decrement, 0xFF, to memory or to its register. -/
theorem incrementDecrement : Obligations.IncrementDecrement := by
  constructor
  · intro i s m delta h ea r
    have hmem : exec i s = modifyMem (addByte delta) m (baseCycles i.form) s := by
      rw [exec_eq]
      rcases h with ⟨hf, rfl⟩ | ⟨hf, rfl⟩ <;> rw [hf]
      · rw [← incByte_eq]; rfl
      · rw [← decByte_eq]; rfl
    rw [hmem]
    exact ⟨_, modifyMem_next _ _ _ _, flagsAre_setZN r s.p⟩
  · intro s i reg delta h r
    have hreg : exec i s = modifyReg (addByte delta) reg 2 s := by
      simp only [List.mem_cons, List.not_mem_nil, or_false, Prod.mk.injEq] at h
      rcases h with ⟨rfl, rfl, rfl⟩ | ⟨rfl, rfl, rfl⟩ | ⟨rfl, rfl, rfl⟩ | ⟨rfl, rfl, rfl⟩
      · rw [← incByte_eq]; rfl
      · rw [← incByte_eq]; rfl
      · rw [← decByte_eq]; rfl
      · rw [← decByte_eq]; rfl
    rw [hreg]
    exact ⟨_, modifyReg_next _ _ _ _, flagsAre_setZN r s.p⟩

end Sys2Proof.Machine

namespace Sys2Proof.Machine

/-! Logic, bit test, shifts and rotates (R210 to R217): what the mnemonics of a family have in common, then the mnemonics. -/

/-- What AND, ORA and EOR have in common: Z and N come from the result of one operation on A and the operand (R210 to R212). -/
def logicByte (op : Byte → Byte → Byte) (a m p : Byte) : Byte × Byte := (op a m, setZN (op a m) p)

/-- Settles O19: each of the three mnemonics accumulates its operation on A and the operand, with the base cycles of its mode. -/
theorem logicInstructions : Obligations.LogicInstructions := by
  intro i s src r h
  obtain ⟨op, hlogic, rfl⟩ : ∃ op, exec i s = accumulate (logicByte op) src (baseCycles i.form) s ∧
      r = op s.a (readSource src s).val := by
    rw [exec_eq]
    rcases h with ⟨hf, rfl⟩ | ⟨hf, rfl⟩ | ⟨hf, rfl⟩ <;> rw [hf]
    · exact ⟨(· &&& ·), rfl, rfl⟩
    · exact ⟨(· ||| ·), rfl, rfl⟩
    · exact ⟨(· ^^^ ·), rfl, rfl⟩
  rw [hlogic]
  exact ⟨_, accumulate_next _ _ _ _, flagsAre_setZN _ _⟩

/-- BIT leaves the state after its operand's read, but for P and the charge. -/
theorem testBits_next (m : AddrMode) (base : Nat) (s : State) :
    testBits m base s = .next { (readSource (.mem m) s).st with
      p := bitFlags s.a (readSource (.mem m) s).val s.p
      rem := base + crossPenalty (readSource (.mem m) s).crossed } := by
  simp only [testBits, readSource_a, readSource_p, setP, finish]

/-- Settles O20: BIT writes the flags of `bitFlags`, with the base cycles of its mode. -/
theorem bitTest : Obligations.BitTest := by
  intro i s m hi o
  have hbit : exec i s = testBits m (baseCycles i.form) s := by
    rw [exec_eq, hi]
    rfl
  rw [hbit]
  exact ⟨_, testBits_next _ _ _, flagsAre_bitFlags _ _ _⟩

/-- What the shifts and rotates have in common: `f` gives the result and the carry out from the operand and the carry in; Z and N come from the
result (R214 to R217). -/
def shiftByte (f : Byte → Bool → Byte × Bool) (m p : Byte) : Byte × Byte :=
  let r := f m (getFlag .c p)
  (r.1, setZN r.1 (setFlag .c r.2 p))

/-- A shift or rotate of its target, the accumulator or memory (R125). -/
def shiftTarget (g : Byte → Byte → Byte × Byte) (tgt : Target) (s : State) : StepResult :=
  match tgt with
  | .acc => modifyReg g .a 2 s
  | .mem m => modifyMem g m (modifyCycles m) s

theorem execForm_asl (tgt : Target) (s : State) : execForm (.asl tgt) s = shiftTarget aslByte tgt s := by cases tgt <;> rfl

theorem execForm_lsr (tgt : Target) (s : State) : execForm (.lsr tgt) s = shiftTarget lsrByte tgt s := by cases tgt <;> rfl

theorem execForm_rol (tgt : Target) (s : State) : execForm (.rol tgt) s = shiftTarget rolByte tgt s := by cases tgt <;> rfl

theorem execForm_ror (tgt : Target) (s : State) : execForm (.ror tgt) s = shiftTarget rorByte tgt s := by cases tgt <;> rfl

/-- Settles O21: each of the four mnemonics is the shift of its target, on A or as one read and one write of the effective address. -/
theorem shiftInstructions : Obligations.ShiftInstructions := by
  intro i s tgt f h
  obtain ⟨hshift, hcycles⟩ : exec i s = shiftTarget (shiftByte f) tgt s ∧ baseCycles i.form = targetCycles tgt := by
    rw [exec_eq]
    rcases h with ⟨hf, rfl⟩ | ⟨hf, rfl⟩ | ⟨hf, rfl⟩ | ⟨hf, rfl⟩ <;> rw [hf]
    · exact ⟨execForm_asl tgt s, rfl⟩
    · exact ⟨execForm_lsr tgt s, rfl⟩
    · exact ⟨execForm_rol tgt s, rfl⟩
    · exact ⟨execForm_ror tgt s, rfl⟩
  rw [hshift, hcycles]
  constructor
  · rintro rfl
    exact ⟨_, modifyReg_next _ _ _ _, flagsAre_setZN_c _ _ _⟩
  · rintro m rfl ea r
    exact ⟨_, modifyMem_next _ _ _ _, flagsAre_setZN_c _ _ _⟩

end Sys2Proof.Machine

namespace Sys2Proof.Machine

/-! Control flow (R230 to R244): jumps, the call and the returns in closed form, and a branch by its condition. -/

theorem wordOf_and (l h l' h' : Byte) : wordOf l h &&& wordOf l' h' = wordOf (l &&& l') (h &&& h') := BitVec.and_append

theorem wordOf_or (l h l' h' : Byte) : wordOf l h ||| wordOf l' h' = wordOf (l ||| l') (h ||| h') := BitVec.or_append

/-- The masks of R231 take the high byte of one word and the low byte of the other. -/
theorem pageMask_or_offsetMask (v w : Word) : (v &&& 0xFF00#16) ||| (w &&& 0x00FF#16) = wordOf (loByte w) (hiByte v) := by
  calc (v &&& 0xFF00#16) ||| (w &&& 0x00FF#16)
    _ = (wordOf (loByte v) (hiByte v) &&& wordOf 0#8 (BitVec.allOnes 8)) |||
        (wordOf (loByte w) (hiByte w) &&& wordOf (BitVec.allOnes 8) 0#8) := by rw [wordOf_bytes, wordOf_bytes]; rfl
    _ = wordOf (loByte w) (hiByte v) := by
      simp only [wordOf_and, wordOf_or, BitVec.and_zero, BitVec.and_allOnes, BitVec.zero_or, BitVec.or_zero]

theorem loByte_add_one (w : Word) : loByte (w + 1#16) = loByte w + 1#8 :=
  BitVec.setWidth_add w 1#16 (by decide)

/-- The indirect jump's target by the masks of R231: both bytes from the pointer's own page, the second read in the state that the first leaves. -/
theorem indirectTarget_eq (p : Word) (s : State) :
    let l := memRead p s
    let h := memRead ((p &&& 0xFF00#16) ||| ((p + 1#16) &&& 0x00FF#16)) l.2
    indirectTarget p s = (wordOf l.1 h.1, h.2) := by
  rw [pageMask_or_offsetMask, loByte_add_one]
  rfl

theorem jumpIndirect_next (p : Word) (base : Nat) (s : State) : jumpIndirect p base s =
    .next { (indirectTarget p s).2 with pc := (indirectTarget p s).1, rem := base } := rfl

theorem callSubroutine_next (a16 : Word) (base : Nat) (s : State) : callSubroutine a16 base s = .next { s with
    ram := (s.ram.write (stackCell s.sp) (hiByte (s.pc - 1#16))).write (stackCell (s.sp - 1#8)) (loByte (s.pc - 1#16))
    sp := s.sp - 2#8, pc := a16, rem := base } := by
  rw [callSubroutine, push16_eq, setPc, finish]

theorem returnSubroutine_next (base : Nat) (s : State) : returnSubroutine base s = .next { s with
    sp := s.sp + 2#8
    pc := wordOf (s.ram.read (stackCell (s.sp + 1#8))) (s.ram.read (stackCell (s.sp + 2#8))) + 1#16
    rem := base } := by
  simp only [returnSubroutine, pull16_eq, setPc, finish]

/-- Settles O22: each of the four instructions is its operation in closed form. -/
theorem jumpCallReturn : Obligations.JumpCallReturn := by
  intro s a16 ret
  refine ⟨rfl, ?_, callSubroutine_next a16 6 s, returnSubroutine_next 6 s⟩
  intro l h
  calc exec (.jmpInd a16) s
    _ = .next { (indirectTarget a16 s).2 with pc := (indirectTarget a16 s).1, rem := 5 } := jumpIndirect_next a16 5 s
    _ = .next { h.2 with pc := wordOf l.1 h.1, rem := 5 } := by rw [indirectTarget_eq]

/-- A branch's target is the signed sum modulo 65536 (R234). -/
theorem add_sext16 (pc : Word) (d8 : Byte) : pc + sext16 d8 = BitVec.ofInt 16 ((pc.toNat : Int) + d8.toInt) := by
  rw [BitVec.ofInt_add, BitVec.ofInt_natCast, BitVec.ofNat_toNat, BitVec.setWidth_eq]
  rfl

theorem branchIf_notTaken (d8 : Byte) (base : Nat) (s : State) : branchIf false d8 base s = .next { s with rem := base } := rfl

/-- A taken branch charges one cycle, and one more when the target's page is not that of the fall-through address. -/
theorem branchIf_taken (d8 : Byte) (base : Nat) (s : State) :
    let target := BitVec.ofInt 16 ((s.pc.toNat : Int) + d8.toInt)
    branchIf true d8 base s = .next { s with
      pc := target, rem := if target.toNat / 256 = s.pc.toNat / 256 then base + 1 else base + 2 } := by
  intro target
  have hcost : base + 1 + crossPenalty (hiByte target != hiByte s.pc) =
      if target.toNat / 256 = s.pc.toNat / 256 then base + 1 else base + 2 := by
    rw [hiByte_bne]
    by_cases hpage : target.toNat / 256 = s.pc.toNat / 256 <;> simp [crossPenalty, hpage]
  simp only [branchIf, add_sext16, if_true, setPc, finish]
  rw [← hcost]

/-- Settles O23: each of the eight mnemonics is the branch on its condition, with 2 base cycles. -/
theorem branchInstructions : Obligations.BranchInstructions := by
  intro i s d8 cond h target
  have hbranch : exec i s = branchIf cond d8 2 s := by
    rcases h with ⟨rfl, rfl⟩ | ⟨rfl, rfl⟩ | ⟨rfl, rfl⟩ | ⟨rfl, rfl⟩ | ⟨rfl, rfl⟩ | ⟨rfl, rfl⟩ | ⟨rfl, rfl⟩ | ⟨rfl, rfl⟩ <;> rfl
  rw [hbranch]
  constructor
  · rintro rfl
    exact branchIf_notTaken d8 2 s
  · rintro rfl
    exact branchIf_taken d8 2 s

/-- A vector of the program window is the two bytes that a read of its addresses returns (R87, R472). -/
theorem vectorTarget_eq_peek {vector : Word} (h1 : 0x8000 ≤ vector.toNat) (h2 : 0x8000 ≤ (vector + 1#16).toNat) (s : State) :
    vectorTarget vector s = wordOf (peek vector s) (peek (vector + 1#16) s) := by
  rw [vectorTarget, peek, peek, memRead_prg _ _ h1, memRead_prg _ _ h2]

/-- Settles O24: BRK is its closed form, whose vector lies in the program window. -/
theorem breakInstruction : Obligations.BreakInstruction := by
  intro s ret
  have hvector : vectorTarget irqVector s = wordOf (peek 0xFFFE#16 s) (peek 0xFFFF#16 s) :=
    vectorTarget_eq_peek (by decide) (by decide) s
  refine ⟨pushedStatus true s.p, setFlag .i true s.p, ?_, flagsAre_pushedStatus true s.p, flagsAre_setFlag .i true s.p⟩
  rw [← hvector]
  exact breakInstr_eq 7 s

/-- Settles O25: RTI is the return from an exception, which pulls P and then PC. -/
theorem returnFromInterrupt : Obligations.ReturnFromInterrupt := by
  intro s
  have hrti : exec .rti s = finish 6 (returnFromException s) := rfl
  rw [hrti, returnFromException_eq]
  exact ⟨_, rfl, flagsAre_pulledStatus _⟩

end Sys2Proof.Machine

namespace Sys2Proof.Machine

/-! The flag instructions and NOP (R260 to R267). -/

/-- A flag instruction leaves its state, but for P and the charge, and P but for its flag. -/
theorem writeFlag_next (f : Flag) (val : Bool) (base : Nat) (s : State) :
    ∃ q, writeFlag f val base s = .next { s with p := q, rem := base } ∧ FlagsAre s.p q [(f, val)] :=
  ⟨setFlag f val s.p, rfl, flagsAre_setFlag f val s.p⟩

/-- Settles O26: each of the seven mnemonics is the write of its flag, with 2 base cycles, and NOP is the charge alone. -/
theorem flagInstructionsAndNop : Obligations.FlagInstructionsAndNop := by
  intro s
  refine ⟨fun i f val h => ?_, rfl⟩
  have hwrite : exec i s = writeFlag f val 2 s := by
    simp only [List.mem_cons, List.not_mem_nil, or_false, Prod.mk.injEq] at h
    rcases h with ⟨rfl, rfl, rfl⟩ | ⟨rfl, rfl, rfl⟩ | ⟨rfl, rfl, rfl⟩ | ⟨rfl, rfl, rfl⟩ | ⟨rfl, rfl, rfl⟩ | ⟨rfl, rfl, rfl⟩ |
      ⟨rfl, rfl, rfl⟩ <;> rfl
  rw [hwrite]
  exact writeFlag_next f val 2 s

end Sys2Proof.Machine

namespace Sys2Proof.Machine

/-! The interrupt entry (R290 to R294). -/

/-- What both services do: `InterruptEntry(vector)`, and INT_CYCLES to charge (R280, R294). -/
def enterInterrupt (vector : Word) (s : State) : State :=
  { takeException vector false s with rem := (takeException vector false s).params.intCycles }

theorem serviceNmi_eq (s : State) : serviceNmi s = enterInterrupt nmiVector { s with nmiRequest := false } := rfl

theorem serviceIrq_eq (s : State) : serviceIrq s = enterInterrupt irqVector s := rfl

/-- The entry through a vector of the program window: three bytes on the stack, I set, PC from the vector, INT_CYCLES to charge. -/
theorem enterInterrupt_eq {vector : Word} (h1 : 0x8000 ≤ vector.toNat) (h2 : 0x8000 ≤ (vector + 1#16).toNat) (s : State) :
    enterInterrupt vector s = { s with
      ram := ((s.ram.write (stackCell s.sp) (hiByte s.pc)).write (stackCell (s.sp - 1#8)) (loByte s.pc)).write
        (stackCell (s.sp - 2#8)) (pushedStatus false s.p)
      sp := s.sp - 3#8, p := setFlag .i true s.p, pc := vectorTarget vector s, rem := s.params.intCycles } := by
  rw [enterInterrupt, takeException_eq _ _ _ h1 h2]

/-- Settles O36: the poll answers the NMI, and its service is the entry through 0xFFFA with the request cleared. -/
theorem nonMaskableInterrupt : Obligations.NonMaskableInterrupt := by
  intro s hfault hnmi
  have hvector : vectorTarget nmiVector s = wordOf (peek 0xFFFA#16 s) (peek 0xFFFB#16 s) :=
    vectorTarget_eq_peek (by decide) (by decide) s
  refine ⟨pushedStatus false s.p, setFlag .i true s.p, ?_, flagsAre_pushedStatus false s.p, flagsAre_setFlag .i true s.p⟩
  rw [step_nmi hfault (poll_nmi hnmi), serviceNmi_eq, enterInterrupt_eq (by decide) (by decide), ← hvector]
  rfl

/-- Settles O37: with no NMI pending and I clear the poll answers the maskable request, whose service is the entry through 0xFFFE. -/
theorem maskableInterrupt : Obligations.MaskableInterrupt := by
  intro s hfault hnmi hirq hi
  have hvector : vectorTarget irqVector s = wordOf (peek 0xFFFE#16 s) (peek 0xFFFF#16 s) :=
    vectorTarget_eq_peek (by decide) (by decide) s
  refine ⟨pushedStatus false s.p, setFlag .i true s.p, ?_, flagsAre_pushedStatus false s.p, flagsAre_setFlag .i true s.p⟩
  rw [step_irq hfault (poll_irq hnmi hirq hi), serviceIrq_eq, enterInterrupt_eq (by decide) (by decide), ← hvector]
  rfl

/-! FatalDecodeError (R282). -/

/-- Settles O27: the meaning of an undocumented byte is to raise FatalDecodeError. -/
theorem undocumentedRaisesFatalDecodeError : Obligations.UndocumentedRaisesFatalDecodeError := fun _ _ => rfl

theorem ppuRegRead_takeStall (r : Nat) (s : State) :
    ppuRegRead r (takeStall s) = ((ppuRegRead r s).1, takeStall (ppuRegRead r s).2) := by
  unfold ppuRegRead
  split <;> rfl

theorem latchRead_takeStall (s : State) : latchRead (takeStall s) = ((latchRead s).1, takeStall (latchRead s).2) := by
  simp only [latchRead]
  split
  · rfl
  · split <;> rfl

theorem latch2Read_takeStall (s : State) : latch2Read (takeStall s) = ((latch2Read s).1, takeStall (latch2Read s).2) := by
  simp only [latch2Read]
  split
  · rfl
  · split <;> rfl

/-- A bus read neither consults nor changes the pending stall. -/
theorem memRead_takeStall (a : Word) (s : State) : memRead a (takeStall s) = ((memRead a s).1, takeStall (memRead a s).2) := by
  unfold memRead
  rw [ppuRegRead_takeStall, latchRead_takeStall, latch2Read_takeStall]
  split
  · rfl
  · split
    · rfl
    · split
      · rfl
      · split <;> split <;> rfl

/-- An undocumented byte at PC is fetched alone (R121, R143). -/
theorem fetchInstruction_undocumented {s : State} (h : (memRead s.pc s).1 ∈ undocumentedBytes) : fetchInstruction s =
    (.undocumented (memRead s.pc s).1, { (memRead s.pc s).2 with pc := s.pc + 1#16 }) := by
  have hlength : instrLength (fetch8 s).1 = 1 := instrLength_undocumented h
  have hselect : assemble (fetch8 s).1 0#8 0#8 = .undocumented (memRead s.pc s).1 := assemble_undocumented h 0#8 0#8
  have hfetched : fetched 1 s = { (memRead s.pc s).2 with pc := s.pc + 1#16 } := congrArg Prod.snd (fetch8_eq s)
  rw [fetchInstruction_eq, hlength, hfetched]
  exact congrArg₂ Prod.mk hselect rfl

theorem completeStep_of_fault {s : State} (h : s.fault = true) (pending : Nat) : completeStep pending s = { s with dmaStall := pending } :=
  if_pos h

theorem completeStep_of_noFault {s : State} (h : s.fault = false) (pending : Nat) : completeStep pending s = finishStep pending s :=
  if_neg (by rw [h]; decide)

/-- Settles O38: the step fetches the byte alone, and where it raises FatalDecodeError it puts the stall back. -/
theorem fatalDecodeErrorStopsTheMachine : Obligations.FatalDecodeErrorStopsTheMachine := by
  refine ⟨fun s hfault hnmi hirq hbyte => ?_, fun s => step_of_fault⟩
  obtain ⟨u, hexec, hstep⟩ := step_instr hfault (poll_none hnmi hirq)
  have hread := memRead_takeStall s.pc s
  rw [fetchInstruction_undocumented (s := takeStall s) (hread ▸ hbyte), hread] at hexec
  cases hexec
  rw [hstep, completeStep_of_fault rfl]
  simp only [raiseFatalDecodeError, BitVec.add_sub_cancel]
  rw [memRead_snd]

end Sys2Proof.Machine

namespace Sys2Proof.Machine

/-! The step of an instruction, and what a step charges (R280, R281). -/

/-- Where fetching has no side effect, the instruction fetched is what the bytes at PC decode to, and only PC moves (R121). -/
theorem fetchInstruction_of_peek {s : State} {i : Instr} {rest : List Byte}
    (hdecode : decode [peek s.pc s, peek (s.pc + 1#16) s, peek (s.pc + 2#16) s] = .ok (i, rest))
    (hpure : ∀ k < (encode i).length, readHasSideEffect (s.pc + BitVec.ofNat 16 k) s = false) :
    fetchInstruction s = (i, { s with pc := s.pc + BitVec.ofNat 16 (encode i).length }) := by
  have hbyte : ∀ k < (encode i).length, (fetch8 (fetched k s)).1 = peek (s.pc + BitVec.ofNat 16 k) s := fun k hk => by
    rw [fetched_pure k s fun j hj => hpure j (hj.trans hk)]
    exact peek_of_storage rfl (hpure k hk)
  rw [← fetched_pure _ s hpure, fetchInstruction_eq]
  rw [decode_three] at hdecode
  have hop : (fetch8 s).1 = peek s.pc s := rfl
  rw [hop]
  rcases instrLength_cases (peek s.pc s) with hlen | hlen | hlen
  all_goals
    rw [hlen] at hdecode ⊢
    cases hdecode
    rw [length_encode_assemble, hlen] at hbyte ⊢
  · rfl
  · rw [hbyte 1 (by decide)]
    rfl
  · rw [hbyte 1 (by decide), hbyte 2 (by decide)]
    rfl

/-- Settles O34: with no interrupt to take, the step executes what it fetched, and `fetchInstruction_of_peek` says what that is. -/
theorem stepRunsDecodedInstruction : Obligations.StepRunsDecodedInstruction := by
  intro s i rest hfault hnmi hirq hdecode hpure
  obtain ⟨t, hexec, hstep⟩ := step_instr hfault (poll_none hnmi hirq)
  have hpeek : ∀ a, peek a (takeStall s) = peek a s := fun a => by rw [peek, memRead_takeStall, peek]
  have hfetch := fetchInstruction_of_peek (s := takeStall s) (by rw [hpeek, hpeek, hpeek]; exact hdecode) hpure
  rw [hfetch] at hexec
  exact ⟨t, hexec, hstep⟩

@[simp] theorem finishStep_rem (pending : Nat) (s : State) : (finishStep pending s).rem = 0 := by rw [finishStep_eq]

@[simp] theorem finishStep_cyc (pending : Nat) (s : State) : (finishStep pending s).cyc = s.cyc + s.rem + pending := by
  rw [finishStep_eq, Nat.add_assoc]

@[simp] theorem finishStep_dmaStall (pending : Nat) (s : State) : (finishStep pending s).dmaStall = s.dmaStall := by
  rw [finishStep_eq]

@[simp] theorem fetchInstruction_cyc (s : State) : (fetchInstruction s).2.cyc = s.cyc :=
  fetchInstruction_keep State.cyc (fun u => by rw [fetch8_eq]; simp) s

/-- No cycle passes within an instruction, whatever its byte (R92). -/
theorem exec_cyc {i : Instr} {s t : State} (h : exec i s = .next t) : t.cyc = s.cyc := by
  by_cases hd : ∀ op, i ≠ .undocumented op
  · exact (exec_fixed h hd).cyc
  · push Not at hd
    obtain ⟨op, rfl⟩ := hd
    cases h
    rfl

/-- Settles O39: each arm of the step ends by charging its cost and the stall; a completed step without the fault latch did too. -/
theorem stepCharges : Obligations.StepCharges := by
  intro s t hstep ht
  obtain ⟨-, ⟨hp, rfl⟩ | ⟨hp, rfl⟩ | ⟨hp, u, hu, rfl⟩⟩ := step_cases hstep
  · rw [serviceNmi_eq, enterInterrupt_eq (by decide) (by decide)]
    simp [hp]
  · rw [serviceIrq_eq, enterInterrupt_eq (by decide) (by decide)]
    simp [hp]
  · have hcyc : u.cyc = s.cyc := (exec_cyc hu).trans (fetchInstruction_cyc _)
    cases hf : u.fault with
    | true =>
      rw [completeStep_of_fault hf] at ht
      exact absurd (hf.symm.trans ht) (by decide)
    | false =>
      rw [completeStep_of_noFault hf]
      exact ⟨finishStep_rem _ _, absurd hp, fun _ => ⟨u, hu, by rw [finishStep_cyc, hcyc], finishStep_dmaStall _ _⟩⟩

end Sys2Proof.Machine

namespace Sys2Proof.Machine

/-! Loading a cartridge (R283, R470, R471). -/

/-- The bytes of a list, in their cells from address `a` on. -/
theorem Memory.read_ofBytes (bs : List Byte) : ∀ a k : Nat,
    (Memory.ofBytes a bs).read k = if a ≤ k then bs.getD (k - a) blankByte else blankByte := by
  induction bs with
  | nil => intro a k; simp [Memory.ofBytes]
  | cons b bs ih =>
    intro a k
    rw [Memory.ofBytes, Memory.read_put _ _ _ _ (by rw [ih, if_neg (by omega)]), ih]
    obtain hk | rfl | hk := Nat.lt_trichotomy k a
    · rw [if_neg (by omega), if_neg (by omega), if_neg (by omega)]
    · simp
    · rw [if_neg (by omega), if_pos (by omega), if_pos (by omega), show k - a = k - (a + 1) + 1 by omega, List.getD_cons_succ]

theorem Memory.read_ofBytes_zero (bs : List Byte) (k : Nat) : (Memory.ofBytes 0 bs).read k = bs.getD k 0#8 := by
  rw [Memory.read_ofBytes, if_pos (Nat.zero_le k)]
  rfl

/-- What CHR holds when the session begins, and whether it is RAM (R470): the bank of the image, or RAM of RAM_INIT. -/
def patternBank (params : Params) (image : CartridgeImage) : Memory × Bool :=
  match image.chr with
  | none => (Memory.fill Config.chrSize params.ramInit, true)
  | some bytes => (Memory.ofBytes 0 bytes, image.chrIsRam)

/-- The cartridge of an image, with the mirroring mode its flag has (R470). -/
def insertedCartridge (params : Params) (image : CartridgeImage) (m : Mirroring) : Cartridge where
  prgSize := if image.prg.length = 16384 then .k16 else .k32
  prg := Memory.ofBytes 0 image.prg
  chrImage := (patternBank params image).1
  chrIsRam := (patternBank params image).2
  mirroring := m

/-- The images that R283 and R471 accept. -/
structure Accepted (image : CartridgeImage) (m : Mirroring) : Prop where
  mapper : image.mapperId = 0
  prg : image.prg.length = 16384 ∨ image.prg.length = 32768
  mirroring : image.mirroring = some m
  chr : ∀ bytes, image.chr = some bytes → bytes.length = 8192

/-- Loading an accepted image answers the session of its cartridge. -/
theorem loadCartridge_of_accepted {image : CartridgeImage} {m : Mirroring} (h : Accepted image m) (params : Params) :
    loadCartridge params image = .next (startSession params (insertedCartridge params image m)) := by
  obtain ⟨hmapper, hprg, hm, hchr⟩ := h
  rw [loadCartridge, if_neg (not_not.mpr hmapper), if_neg (by omega), hm]
  cases hc : image.chr with
  | none => simp only [insertedCartridge, patternBank, hc]
  | some bytes =>
    have hlength : bytes.length = Config.chrSize := hchr bytes hc
    simp only [insertedCartridge, patternBank, hc, hlength, ne_eq, not_true_eq_false, if_false]

/-- A load that answers a machine has passed every check. -/
theorem accepted_of_loadCartridge {params : Params} {image : CartridgeImage} {s : State} (h : loadCartridge params image = .next s) :
    ∃ m, Accepted image m := by
  have hmapper : image.mapperId = 0 := by
    by_contra hbad
    rw [loadCartridge, if_pos hbad] at h
    cases h
  rw [loadCartridge, if_neg (not_not.mpr hmapper)] at h
  have hprg : ¬(image.prg.length ≠ 16384 ∧ image.prg.length ≠ 32768) := by
    intro hbad
    rw [if_pos hbad] at h
    cases h
  rw [if_neg hprg] at h
  cases hm : image.mirroring with
  | none =>
    rw [hm] at h
    cases h
  | some m =>
    refine ⟨m, hmapper, by omega, hm, fun bytes hbank => ?_⟩
    by_contra hbad
    have hsize : bytes.length ≠ Config.chrSize := hbad
    simp only [hm, hbank] at h
    rw [if_pos hsize] at h
    cases h

/-- A session begins with its cartridge and its parameters, and with CHR as loaded: the reset tick changes none of them (R510). -/
theorem startSession_loaded (params : Params) (cart : Cartridge) : (startSession params cart).cart = cart ∧
    (startSession params cart).params = params ∧ (startSession params cart).chr = cart.chrImage := by
  rw [startSession, resetSequence_eq, tick_eq]
  exact ⟨rfl, rfl, ite_self _⟩

/-- Settles O46: a load is accepted exactly for an accepted image, and the session holds the cartridge of the image. -/
theorem loadRefusals : Obligations.LoadRefusals := by
  intro params image
  refine ⟨⟨?_, ?_⟩, fun hmapper => by rw [loadCartridge, if_pos hmapper], fun s hs => ?_⟩
  · rintro ⟨s, hs⟩
    obtain ⟨m, hmapper, hprg, hm, hchr⟩ := accepted_of_loadCartridge hs
    exact ⟨hmapper, hprg, by rw [hm]; exact Option.some_ne_none m, hchr⟩
  · rintro ⟨hmapper, hprg, hmirroring, hchr⟩
    obtain ⟨m, hm⟩ := Option.ne_none_iff_exists'.mp hmirroring
    exact ⟨_, loadCartridge_of_accepted ⟨hmapper, hprg, hm, hchr⟩ params⟩
  · obtain ⟨m, haccepted⟩ := accepted_of_loadCartridge hs
    rw [loadCartridge_of_accepted haccepted] at hs
    cases hs
    obtain ⟨hcart, hparams, hchr⟩ := startSession_loaded params (insertedCartridge params image m)
    rw [hcart, hchr]
    have hsize : (insertedCartridge params image m).prgSize.bytes = image.prg.length := by
      rcases haccepted.prg with hlength | hlength <;> simp [insertedCartridge, hlength, PrgSize.bytes]
    refine ⟨fun k _ => Memory.read_ofBytes_zero image.prg k, hsize, haccepted.mirroring.symm, hparams, fun bytes hbank => ?_,
      fun hbank => ?_⟩
    · rw [insertedCartridge, patternBank, hbank]
      exact ⟨rfl, fun k _ => Memory.read_ofBytes_zero bytes k⟩
    · rw [insertedCartridge, patternBank, hbank]
      exact ⟨rfl, fun k hk => Memory.read_fill _ _ k hk⟩

end Sys2Proof.Machine

namespace Sys2Proof.Machine

/-- Settles O40: both sides in the closed form of the support layer; a dot's request is its condition on position and CTRL.NMI. -/
theorem tickIsThreeDotsACycle : Obligations.TickIsThreeDotsACycle := by
  intro n s
  refine ⟨?_, rfl⟩
  rw [tick_eq, tickDot_iterate]

end Sys2Proof.Machine

namespace Sys2Proof.Machine

/-! Sprite DMA (R335): the loop as a fold over the page, and what it leaves from a page of plain memory. -/

/-- One transfer of sprite DMA: the bus read of byte `i` of the page, stored as a write of register 4 stores it (R335, R369). -/
def dmaTransfer (page : Byte) (u : State) (i : Nat) : State :=
  let r := memRead (wordOf (BitVec.ofNat 8 i) page) u
  { r.2 with ppu := oamDataWrite r.1 r.2.ppu }

/-- The DMA loop is the transfers of its indices, in ascending order. -/
theorem dmaCopy_eq_foldl (page : Byte) (n : Nat) : ∀ (i : Nat) (s : State),
    dmaCopy page n i s = (List.range' i n).foldl (dmaTransfer page) s := by
  induction n with
  | zero => intro i s; rfl
  | succ n ih => intro i s; exact ih (i + 1) (dmaTransfer page s i)

/-- Sprite DMA is the 256 transfers of the page, and then the stall of the parameters (R335). -/
theorem oamDma_eq (page : Byte) (s : State) :
    oamDma page s = { (List.range 256).foldl (dmaTransfer page) s with dmaStall := s.params.dmaStallCycles } := by
  have hloop : dmaCopy page 256 0 s = (List.range 256).foldl (dmaTransfer page) s := by
    rw [dmaCopy_eq_foldl, List.range_eq_range']
  have hparams : ((List.range 256).foldl (dmaTransfer page) s).params = s.params := by rw [← hloop, dmaCopy_snd]
  simp only [oamDma, hloop, hparams]

/-- A write of the sprite DMA port (R335). -/
theorem memWrite_oamDma (page : Byte) (s : State) : memWrite 0x4014#16 page s = oamDma page s := by simp [memWrite]

/-- A read of work memory or of the program window changes nothing, and its byte does not depend on the Picture Generator. -/
theorem memRead_plain {a : Word} (ha : a.toNat < 0x2000 ∨ 0x8000 ≤ a.toNat) (g : Picture) (s : State) :
    memRead a { s with ppu := g } = (peek a s, { s with ppu := g }) := by
  obtain hram | hprg := ha
  · rw [memRead_ram _ _ (by omega), peek_ram (by omega)]
  · rw [memRead_prg _ _ hprg, peek, memRead_prg _ _ hprg]

/-- The first `n` transfers from a page of plain memory change OAM and OAMADDR alone: OAMADDR is `n` higher, and OAM holds the `n` bytes
from its old value on, round the end. -/
theorem dmaTransfers_plain {page : Byte} (hpage : page.toNat < 0x20 ∨ 0x80 ≤ page.toNat) (s : State) (n : Nat) (hn : n ≤ 256) :
    ∃ oam, (List.range n).foldl (dmaTransfer page) s =
        { s with ppu := { s.ppu with oam := oam, oamAddr := s.ppu.oamAddr + BitVec.ofNat 8 n } } ∧
      ∀ k < n, oam.read ((s.ppu.oamAddr.toNat + k) % 256) = peek (wordOf (BitVec.ofNat 8 k) page) s := by
  induction n with
  | zero => exact ⟨s.ppu.oam, by simp, by simp⟩
  | succ n ih =>
    obtain ⟨oam, hstate, hbytes⟩ := ih (by omega)
    have haddr : (wordOf (BitVec.ofNat 8 n) page).toNat < 0x2000 ∨ 0x8000 ≤ (wordOf (BitVec.ofNat 8 n) page).toNat := by
      rw [wordOf_toNat]
      omega
    have hcell : (s.ppu.oamAddr + BitVec.ofNat 8 n).toNat = (s.ppu.oamAddr.toNat + n) % 256 := by simp
    refine ⟨oam.write ((s.ppu.oamAddr.toNat + n) % 256) (peek (wordOf (BitVec.ofNat 8 n) page) s), ?_, fun k hk => ?_⟩
    · rw [List.range_succ, List.foldl_append, hstate, List.foldl_cons, List.foldl_nil, dmaTransfer, memRead_plain haddr,
        oamDataWrite, hcell, BitVec.add_assoc, ← BitVec.ofNat_add]
    · obtain hlt | rfl := Nat.lt_succ_iff_lt_or_eq.mp hk
      · rw [Memory.read_write_other _ _ (by omega), hbytes k hlt]
      · rw [Memory.read_write_same]

/-- Settles O50: register 4 through the register window, and sprite DMA as its 256 transfers, which from plain memory change OAM alone
because OAMADDR steps round once. -/
theorem spriteTableWrites : Obligations.SpriteTableWrites := by
  refine ⟨fun a d s hr => ⟨memRead_picRegister hr s, memWrite_picRegister hr d s⟩, fun page s => ?_, fun page s hpage => ?_⟩
  · rw [memWrite_oamDma, oamDma_eq]
    rfl
  · obtain ⟨oam, hstate, hbytes⟩ := dmaTransfers_plain hpage s 256 (Nat.le_refl 256)
    refine ⟨oam, ?_, hbytes⟩
    rw [memWrite_oamDma, oamDma_eq, hstate, show BitVec.ofNat 8 256 = 0#8 from rfl, BitVec.add_zero]

end Sys2Proof.Machine

namespace Sys2Proof.Machine

/-! The program window (R472). -/

/-- With a 16384-byte PRG the two halves of the program window are one bank (R472). -/
theorem prgIndex_k16_mirror {a : Word} (hlo : 0x8000 ≤ a.toNat) (hhi : a.toNat ≤ 0xBFFF) :
    prgIndex .k16 (a + 0x4000#16) = prgIndex .k16 a := by
  have hsum : (a + 0x4000#16).toNat = a.toNat + 0x4000 := by
    rw [BitVec.toNat_add]
    exact Nat.mod_eq_of_lt (by simp only [BitVec.toNat_ofNat]; omega)
  simp only [prgIndex, PrgSize.bytes, hsum]
  omega

/-- Settles O9: the window by its two ranges, whose halves are one bank when PRG has 16384 bytes. -/
theorem programWindow : Obligations.ProgramWindow := by
  intro a s
  refine ⟨memRead_prg a s, fun hsize hlo hhi => ?_, fun hlo hhi => ?_⟩
  · have hsum : 0x8000 ≤ (a + 0x4000#16).toNat := by bv_omega
    rw [peek, peek, memRead_prg _ s hsum, memRead_prg a s hlo, hsize, prgIndex_k16_mirror hlo hhi]
  · exact memRead_openBus (by omega) hhi (by bv_omega) (by bv_omega) s

end Sys2Proof.Machine

namespace Sys2Proof.Machine

/-! The picture registers (R363 to R371). -/

/-- The bits of the byte that STATUS reads as (R366). -/
theorem statusByte_getLsbD (g : Picture) {k : Nat} (hk : k < 8) : (statusByte g).getLsbD k =
    ((k == 7 && g.vblank) || (k == 6 && g.spriteZeroHit) || (k == 5 && g.spriteOverflow)) := by
  have all : ∀ (v z o : Bool), ∀ k < 8,
      ((if v then 0x80#8 else 0#8) ||| (if z then 0x40#8 else 0#8) ||| (if o then 0x20#8 else 0#8)).getLsbD k =
        ((k == 7 && v) || (k == 6 && z) || (k == 5 && o)) := by decide
  exact all g.vblank g.spriteZeroHit g.spriteOverflow k hk

/-- STATUS without V is STATUS without bit 7 (R366). -/
theorem statusByte_cleared (g : Picture) (w : Bool) : statusByte { g with vblank := false, w := w } = statusByte g &&& 0x7F#8 := by
  have all : ∀ (v z o : Bool),
      ((0#8) ||| (if z then 0x40#8 else 0#8) ||| (if o then 0x20#8 else 0#8)) =
        ((if v then 0x80#8 else 0#8) ||| (if z then 0x40#8 else 0#8) ||| (if o then 0x20#8 else 0#8)) &&& 0x7F#8 := by decide
  exact all g.vblank g.spriteZeroHit g.spriteOverflow

/-- Settles O47: each register through the register window; a second status read finds V and `w` clear. -/
theorem controlMaskStatus : Obligations.ControlMaskStatus := by
  intro a d s
  refine ⟨fun hr => memWrite_picRegister hr d s, fun hr => memWrite_picRegister hr d s, fun hr => memWrite_picRegister hr d s,
    fun hr => ?_⟩
  have hread (u : State) : memRead a u = (statusByte u.ppu, { u with ppu := { u.ppu with vblank := false, w := false } }) :=
    memRead_picRegister hr u
  simp only [hread]
  exact ⟨trivial, fun k hk => statusByte_getLsbD s.ppu hk, congrArg (·, _) (statusByte_cleared s.ppu false)⟩

/-- The two writes of register 5, by the toggle (R370). -/
theorem scrollWrite_first {g : Picture} (h : g.w = false) (d : Byte) : scrollWrite d g = { g with
    t := (g.t &&& 0x7FE0#15) ||| (d >>> 3).setWidth 15, fineX := (d &&& 0x07#8).setWidth 3, w := true } := by
  rw [scrollWrite, if_neg (by rw [h]; decide)]

theorem scrollWrite_second {g : Picture} (h : g.w = true) (d : Byte) : scrollWrite d g = { g with
    t := (g.t &&& 0x0C1F#15) ||| ((d &&& 0x07#8).setWidth 15 <<< 12) ||| ((d >>> 3).setWidth 15 <<< 5), w := false } := by
  rw [scrollWrite, if_pos h]

/-- The two writes of register 6, by the toggle (R371). -/
theorem addrWrite_first {g : Picture} (h : g.w = false) (d : Byte) : addrWrite d g = { g with
    t := (g.t &&& 0x00FF#15) ||| ((d &&& 0x3F#8).setWidth 15 <<< 8), w := true } := by
  rw [addrWrite, if_neg (by rw [h]; decide)]

theorem addrWrite_second {g : Picture} (h : g.w = true) (d : Byte) : addrWrite d g = { g with
    t := (g.t &&& 0x7F00#15) ||| d.setWidth 15, v := (g.t &&& 0x7F00#15) ||| d.setWidth 15, w := false } := by
  rw [addrWrite, if_pos h]

/-- Settles O48: registers 5 and 6 through the register window, each by its first and its second write. -/
theorem scrollAndAddressWrites : Obligations.ScrollAndAddressWrites := by
  intro a d s
  refine ⟨fun hr hw => ?_, fun hr hw => ?_, fun hr hw => ?_, fun hr hw => ?_⟩
  · rw [memWrite_picRegister hr, ppuRegWrite, scrollWrite_first hw]
  · rw [memWrite_picRegister hr, ppuRegWrite, scrollWrite_second hw]
  · rw [memWrite_picRegister hr, ppuRegWrite, addrWrite_first hw]
  · rw [memWrite_picRegister hr, ppuRegWrite, addrWrite_second hw]

end Sys2Proof.Machine

namespace Sys2Proof.Machine

/-! Register 7 and the Picture Generator's address space (R376, R377, R384 to R388, R478). -/

/-- A nametable's 1024 cells lie together (R387). -/
theorem and_03FF_toNat (a : BitVec 14) : (a &&& 0x03FF#14).toNat = a.toNat % 1024 := by
  rw [BitVec.toNat_and]
  exact Nat.and_two_pow_sub_one_eq_mod a.toNat 10

/-- Bit `i` of a nametable number, which starts at bit 10 of an address (R387, R478). -/
theorem tableBit_toNat (a : BitVec 14) {i : Nat} (hi : i < 2) :
    ((a.extractLsb' 10 2).extractLsb' i 1).toNat = a.toNat / 2 ^ (10 + i) % 2 := by
  have hbits : (a.extractLsb' 10 2).extractLsb' i 1 = a.extractLsb' (10 + i) 1 := by
    ext j hj
    simp only [BitVec.getElem_extractLsb', BitVec.getLsbD_extractLsb', show i + j < 2 by omega, decide_true, Bool.true_and,
      Nat.add_assoc]
  rw [hbits, BitVec.extractLsb'_toNat, Nat.shiftRight_eq_div_pow]

/-- Horizontal mirroring folds by bit 11, vertical by bit 10 (R478). -/
theorem ntIndex_horizontal (a : BitVec 14) : ntIndex .horizontal a = a.toNat / 2048 % 2 * 1024 + a.toNat % 1024 := by
  rw [ntIndex, physicalTable, tableBit_toNat a (by decide), and_03FF_toNat, show 2 ^ (10 + 1) = 2048 from rfl]

theorem ntIndex_vertical (a : BitVec 14) : ntIndex .vertical a = a.toNat / 1024 % 2 * 1024 + a.toNat % 1024 := by
  rw [ntIndex, physicalTable, tableBit_toNat a (by decide), and_03FF_toNat, show 2 ^ (10 + 0) = 1024 from rfl]

/-- The palette cell of an address: 32 cells mirrored, and four of them shared (R388). -/
theorem palIndex_eq (a : BitVec 14) : palIndex a =
    if a.toNat % 32 ∈ [16, 20, 24, 28] then a.toNat % 32 - 16 else a.toNat % 32 := by
  have all : ∀ i < 32, (if BitVec.ofNat 14 i &&& 0x13#14 = 0x10#14 then (BitVec.ofNat 14 i &&& 0x0F#14).toNat
      else (BitVec.ofNat 14 i).toNat) = if i ∈ [16, 20, 24, 28] then i - 16 else i := by decide
  have hmod : (a &&& 0x1F#14).toNat = a.toNat % 32 := by
    rw [BitVec.toNat_and]
    exact Nat.and_two_pow_sub_one_eq_mod a.toNat 5
  have := all (a &&& 0x1F#14).toNat (by omega)
  rw [BitVec.ofNat_toNat, BitVec.setWidth_eq, hmod] at this
  simp only [palIndex, hmod]
  exact this

/-- An access through register 7 adds 1 or 32 to `v`, modulo 32768 (R376, R377). -/
theorem advanceV_eq (g : Picture) : advanceV g = BitVec.ofNat 15 (g.v.toNat + (if g.ctrl.getLsbD 2 then 32 else 1)) := by
  rw [BitVec.ofNat_add, BitVec.ofNat_toNat, BitVec.setWidth_eq, advanceV, ctrlInc]
  split <;> rfl

/-- The three parts of the Picture Generator's address space, read (R384). -/
theorem ppuRead_eq (chr : Memory) (m : Mirroring) (g : Picture) (a : BitVec 14) : ppuRead chr m g a =
    if a.toNat < 0x2000 then chr.read a.toNat
    else if a.toNat < 0x3F00 then g.vram.read (ntIndex m a) else g.pal.read (palIndex a) := by
  simp only [ppuRead, readChr, ← Nat.lt_succ_iff]

/-- The three parts of the Picture Generator's address space, written (R385). -/
theorem ppuWrite_pattern {a : BitVec 14} (h : a.toNat < 0x2000) (d : Byte) (s : State) :
    ppuWrite a d s = { s with chr := if s.cart.chrIsRam then s.chr.write a.toNat d else s.chr } := by
  rw [ppuWrite, if_pos (by omega)]
  split <;> rfl

theorem ppuWrite_nametable {a : BitVec 14} (hlo : 0x2000 ≤ a.toNat) (hhi : a.toNat < 0x3F00) (d : Byte) (s : State) :
    ppuWrite a d s = { s with ppu := { s.ppu with vram := s.ppu.vram.write (ntIndex s.cart.mirroring a) d } } := by
  rw [ppuWrite, if_neg (by omega), if_pos (by omega)]

theorem ppuWrite_palette {a : BitVec 14} (h : 0x3F00 ≤ a.toNat) (d : Byte) (s : State) :
    ppuWrite a d s = { s with ppu := { s.ppu with pal := s.ppu.pal.write (palIndex a) (d &&& 0x3F#8) } } := by
  rw [ppuWrite, if_neg (by omega), if_neg (by omega)]

/-- Settles O49: the address is the low 14 bits of `v`, whose cells are those of the lemmas above. -/
theorem dataPort : Obligations.DataPort := by
  intro a d s hr p next table cell entry fetch
  have hp : (s.ppu.v.setWidth 14).toNat = p := BitVec.toNat_setWidth 14 s.ppu.v
  have hcell (b : BitVec 14) : ntIndex s.cart.mirroring b = cell b.toNat := by
    simp only [cell, table]
    cases s.cart.mirroring
    · exact ntIndex_horizontal b
    · exact ntIndex_vertical b
  have hfetch (b : BitVec 14) : ppuRead s.chr s.cart.mirroring s.ppu b = fetch b.toNat := by
    rw [ppuRead_eq, hcell, palIndex_eq]
  have hread : memRead a s = ppuRegRead 7 s := memRead_picRegister hr s
  have hwrite : memWrite a d s = dataWrite d s := memWrite_picRegister hr d s
  rw [hread, hwrite, dataWrite, advanceV_eq]
  refine ⟨?_, fun hlt => ?_, fun hlo hhi => ?_, fun hlo => ?_⟩
  · simp only [ppuRegRead, dataRead, hp, hfetch, advanceV_eq]
    split
    · rfl
    · next hge =>
      have hbelow : (s.ppu.v.setWidth 14 - 0x1000#14).toNat = p - 0x1000 := by
        rw [BitVec.toNat_sub_of_le (by rw [BitVec.le_def, hp]; simp only [BitVec.toNat_ofNat]; omega), hp]
        rfl
      rw [hbelow]
  · rw [ppuWrite_pattern (hp ▸ hlt), hp]
  · rw [ppuWrite_nametable (hp ▸ hlo) (hp ▸ hhi), hcell, hp]
  · rw [ppuWrite_palette (hp ▸ hlo), palIndex_eq, hp]

end Sys2Proof.Machine

namespace Sys2Proof.Machine

/-! The Input Latch (R490 to R497). -/

/-- A read of the first latch, by the strobe and the index (R494). -/
theorem latchRead_strobed {s : State} (h : s.latch.strobe = true) : latchRead s =
    (serialByte (s.buttons.getLsbD 0), { s with latch := { s.latch with shift := s.buttons, idx := 0 } }) := by
  rw [latchRead, if_pos h]

theorem latchRead_shifting {s : State} (h : s.latch.strobe = false) (hidx : s.latch.idx < 8) : latchRead s =
    (serialByte (s.latch.shift.getLsbD s.latch.idx), { s with latch := { s.latch with idx := s.latch.idx + 1 } }) := by
  rw [latchRead, if_neg (by rw [h]; decide), if_neg (by omega)]

theorem latchRead_exhausted {s : State} (h : s.latch.strobe = false) (hidx : 8 ≤ s.latch.idx) : latchRead s = (0x01#8, s) := by
  rw [latchRead, if_neg (by rw [h]; decide), if_pos hidx]

/-- A read of the second latch, by the strobe and its own index (R497). -/
theorem latch2Read_strobed {s : State} (h : s.latch.strobe = true) : latch2Read s =
    (serialByte (s.buttons2.getLsbD 0), { s with latch := { s.latch with shift2 := s.buttons2, idx2 := 0 } }) := by
  rw [latch2Read, if_pos h]

theorem latch2Read_shifting {s : State} (h : s.latch.strobe = false) (hidx : s.latch.idx2 < 8) : latch2Read s =
    (serialByte (s.latch.shift2.getLsbD s.latch.idx2), { s with latch := { s.latch with idx2 := s.latch.idx2 + 1 } }) := by
  rw [latch2Read, if_neg (by rw [h]; decide), if_neg (by omega)]

theorem latch2Read_exhausted {s : State} (h : s.latch.strobe = false) (hidx : 8 ≤ s.latch.idx2) : latch2Read s = (0x01#8, s) := by
  rw [latch2Read, if_neg (by rw [h]; decide), if_pos hidx]

/-- What a write of the strobe captures: the buttons, and those of a second pad where there is one (R492, R497). -/
def capturedLatch (strobe : Bool) (s : State) : Latch where
  strobe := strobe
  shift := s.buttons
  idx := 0
  shift2 := if s.params.pad2Present then s.buttons2 else s.latch.shift2
  idx2 := if s.params.pad2Present then 0 else s.latch.idx2

/-- A write of the first pad's port strobes the latch with bit 0 (R323, R492). -/
theorem memWrite_pad (v : Byte) (s : State) : memWrite 0x4016#16 v s = latchStrobe (v.getLsbD 0) s := by simp [memWrite]

/-- A strobe captures where it sets the strobe or finds it set (R492). -/
theorem latchStrobe_captures {b : Bool} {s : State} (h : s.latch.strobe = true ∨ b = true) :
    latchStrobe b s = { s with latch := capturedLatch b s } := by
  rw [latchStrobe, if_pos (by simpa using h), capturedLatch]
  split <;> rfl

/-- Clearing a strobe that is clear changes nothing (R492). -/
theorem latchStrobe_idle {s : State} (h : s.latch.strobe = false) : latchStrobe false s = s := by
  rw [latchStrobe, if_neg (by rw [h]; decide), ← h]

/-- Writing 1 then 0 captures once, and leaves the strobe clear (R492). -/
theorem memWrite_pad_pulse (s : State) : memWrite 0x4016#16 0x00#8 (memWrite 0x4016#16 0x01#8 s) =
    { s with latch := capturedLatch false s } := by
  rw [memWrite_pad, memWrite_pad, latchStrobe_captures (b := BitVec.getLsbD 0x01#8 0) (.inr rfl), latchStrobe_captures (.inl rfl)]
  simp only [capturedLatch]
  split <;> rfl

/-- The output of the `n`-th of a chain of reads, whose states are known. -/
theorem fst_iterate_snd {σ β : Type} {read : σ → β × σ} {out : Nat → β} {st : Nat → σ} (h : ∀ n, read (st n) = (out n, st (n + 1)))
    (n : Nat) : (read (Nat.iterate (fun u => (read u).2) n (st 0))).1 = out n := by
  have hst : Nat.iterate (fun u => (read u).2) n (st 0) = st n := by
    induction n with
    | zero => rfl
    | succ n ih => rw [Function.iterate_succ_apply', ih, h]
  rw [hst, h]

/-- The latch after the strobe and `n` reads of one port: that port's index has stopped at 8 (R494). -/
def afterReads1 (s : State) (n : Nat) : State := { s with latch := { capturedLatch false s with idx := min n 8 } }

/-- The same of the second port (R497). -/
def afterReads2 (s : State) (n : Nat) : State := { s with latch := { capturedLatch false s with idx2 := min n 8 } }

theorem memRead_afterReads1 (s : State) (n : Nat) : memRead 0x4016#16 (afterReads1 s n) =
    (if n < 8 then (if s.buttons.getLsbD n then 0x01#8 else 0x00#8) else 0x01#8, afterReads1 s (n + 1)) := by
  rw [memRead_pad1]
  by_cases hn : n < 8
  · rw [if_pos hn, latchRead_shifting rfl (show min n 8 < 8 by omega)]
    simp only [afterReads1, show min n 8 = n by omega, show min (n + 1) 8 = n + 1 by omega]
    rfl
  · rw [if_neg hn, latchRead_exhausted rfl (show 8 ≤ min n 8 by omega)]
    simp only [afterReads1, show min n 8 = 8 by omega, show min (n + 1) 8 = 8 by omega]

theorem memRead_afterReads2 {s : State} (hpad : s.params.pad2Present = true) (n : Nat) : memRead 0x4017#16 (afterReads2 s n) =
    (if n < 8 then (if s.buttons2.getLsbD n then 0x01#8 else 0x00#8) else 0x01#8, afterReads2 s (n + 1)) := by
  rw [memRead_pad2, if_pos (show (afterReads2 s n).params.pad2Present = true from hpad)]
  by_cases hn : n < 8
  · rw [if_pos hn, latch2Read_shifting rfl (show min n 8 < 8 by omega)]
    simp only [afterReads2, capturedLatch, hpad, if_true, show min n 8 = n by omega, show min (n + 1) 8 = n + 1 by omega]
    rfl
  · rw [if_neg hn, latch2Read_exhausted rfl (show 8 ≤ min n 8 by omega)]
    simp only [afterReads2, show min n 8 = 8 by omega, show min (n + 1) 8 = 8 by omega]

/-- Settles O51: the chains of reads after the strobe, and each read and write of a port by the strobe and the index. -/
theorem inputLatchProtocol : Obligations.InputLatchProtocol := by
  intro s strobed after bit
  have hstrobed : strobed = { s with latch := capturedLatch false s } := memWrite_pad_pulse s
  have h1 : strobed = afterReads1 s 0 := hstrobed
  have h2 (hpad : s.params.pad2Present = true) : strobed = afterReads2 s 0 := by
    rw [hstrobed]
    simp only [afterReads2, capturedLatch, hpad, if_true, Nat.zero_min]
  have hread2 (hpad : s.params.pad2Present = true) : memRead 0x4017#16 s = latch2Read s := by rw [memRead_pad2, if_pos hpad]
  refine ⟨by rw [hstrobed]; rfl, by rw [hstrobed]; rfl, by rw [hstrobed]; rfl, fun n => ?_, fun hpad n => ?_, fun h => ?_,
    fun h hpad => ?_, fun h hidx => ?_, fun h hpad hidx => ?_, fun h hidx => ?_, fun h hpad hidx => ?_, fun v h hv => ?_,
    fun v h => ?_⟩
  · simp only [after, h1]
    exact fst_iterate_snd (memRead_afterReads1 s) n
  · simp only [after, h2 hpad]
    exact fst_iterate_snd (memRead_afterReads2 hpad) n
  · rw [memRead_pad1, latchRead_strobed h, serialByte]
  · rw [hread2 hpad, latch2Read_strobed h, serialByte]
  · rw [memRead_pad1, latchRead_shifting h hidx, serialByte]
  · rw [hread2 hpad, latch2Read_shifting h hidx, serialByte]
  · rw [memRead_pad1, latchRead_exhausted h hidx]
  · rw [hread2 hpad, latch2Read_exhausted h hidx]
  · rw [memWrite_pad, hv, latchStrobe_idle h]
  · rw [memWrite_pad, latchStrobe_captures h]
    exact ⟨_, rfl, rfl, rfl, rfl, fun hpad => by simp only [capturedLatch, hpad, if_true, and_self]⟩

end Sys2Proof.Machine

namespace Sys2Proof.Machine

/-! The states of a session (R340, R412, R413). -/

/-- What the loader supplied keeps every bound of the invariant, so loading establishes it (R470, R510). -/
theorem inv_startSession {image : CartridgeImage} {m : Mirroring} (h : Accepted image m) (params : Params) :
    Inv (startSession params (insertedCartridge params image m)) := by
  have hprg : (Memory.ofBytes 0 image.prg).ok (if image.prg.length = 16384 then PrgSize.k16 else PrgSize.k32).bytes = true := by
    refine Memory.ofBytes_within _ ?_
    rcases h.prg with hlength | hlength <;> rw [hlength] <;> decide
  have hbank : (patternBank params image).1.ok Config.chrSize = true := by
    cases hc : image.chr with
    | none =>
      rw [patternBank, hc]
      exact Memory.fill_ok _ _
    | some bytes =>
      rw [patternBank, hc]
      exact Memory.ofBytes_within bytes (Nat.le_of_eq (h.chr bytes hc))
  exact inv_resetSequence hprg hbank hbank (fun _ => rfl)

/-- The invariant does not look at the buttons. -/
theorem Inv.setButtons {s : State} (h : Inv s) (b b2 : Byte) : Inv (Machine.setButtons b b2 s) :=
  (h.mid.congr (t := Machine.setButtons b b2 s) h.status rfl rfl rfl rfl rfl rfl rfl rfl rfl).inv h.idle

/-- The invariant holds in every state of a session: each way to reach one establishes or keeps it. -/
theorem Reachable.inv {s : State} (h : Reachable s) : Inv s := by
  induction h with
  | load params image s hload =>
    obtain ⟨m, haccepted⟩ := accepted_of_loadCartridge hload
    rw [loadCartridge_of_accepted haccepted] at hload
    cases hload
    exact inv_startSession haccepted params
  | step s t _ hstep ih => exact stepKeepsInvariant s t ih hstep
  | reset s _ ih => exact inv_resetSequence ih.prg ih.chr ih.chrImage ih.rom
  | buttons s b b2 _ ih => exact ih.setButtons b b2

/-- Settles O43: the invariant says where the position and the frame count stand, and every state of a session has it. -/
theorem positionFollowsCycles : Obligations.PositionFollowsCycles := by
  intro s hs
  have h := hs.inv
  obtain ⟨hdot, hposition⟩ := h.position
  have hframes := h.frames
  rw [show dotsPerFrame = 89342 from rfl] at hposition hframes
  exact ⟨h, by omega, by omega, by omega⟩

/-! The values of the reset sequence (R510). -/

/-- Cells that all hold one byte read as that byte. -/
theorem Memory.read_map_const (b : Byte) {l : List Nat} {k : Nat} (hk : k ∈ l) : Memory.read (l.map (fun i => (i, b))) k = b := by
  induction l with
  | nil => cases hk
  | cons i l ih =>
    rw [List.map_cons, Memory.read_cons]
    by_cases hi : i = k
    · exact if_pos hi
    · rw [if_neg hi]
      exact ih ((List.mem_cons.mp hk).resolve_left (Ne.symm hi))

/-- Every palette address reaches one of the 28 cells that exist (R48, R388). -/
theorem palIndex_mem (a : BitVec 14) : palIndex a ∈ (List.range 32).filter (fun i => decide (i < 16) || i % 4 != 0) := by
  have all : ∀ i < 32, (if i ∈ [16, 20, 24, 28] then i - 16 else i) ∈
      (List.range 32).filter (fun i => decide (i < 16) || i % 4 != 0) := by decide
  rw [palIndex_eq]
  exact all (a.toNat % 32) (Nat.mod_lt _ (by decide))

/-- The palette after reset reads its byte at every address (R510). -/
theorem fillPalette_read (b : Byte) (a : BitVec 14) : (fillPalette b).read (palIndex a) = b := by
  unfold fillPalette
  split
  · next hb => exact hb.symm
  · exact Memory.read_map_const b (palIndex_mem a)

/-- A blank FrameBuffer reads 0 everywhere (R56). -/
theorem fbRead_replicate_nil (n row col : Nat) : fbRead (List.replicate n []) row col = blankByte := by
  induction n generalizing row with
  | zero => rfl
  | succ n ih =>
    cases row with
    | zero => rfl
    | succ row => exact ih row

/-- Settles O45: the state before the reset tick is `resetRegisters` with PC from the vector, which has each value by its definition. -/
theorem resetSequenceValues : Obligations.ResetSequenceValues := by
  intro s
  have hcyc : (resetSequence s).cyc = s.params.resetCycles := by
    rw [resetSequence_eq, tick_eq]
    exact Nat.zero_add _
  refine ⟨_, resetSequence_eq s, hcyc, rfl, rfl, rfl, rfl, rfl, rfl, rfl, fun k hk => Memory.read_fill _ _ k hk, rfl, rfl, rfl, rfl,
    rfl, rfl, rfl, rfl, rfl, rfl, rfl, rfl, rfl, rfl, rfl, rfl, rfl, rfl, fun k hk => Memory.read_fill _ _ k hk,
    fun k hk => Memory.read_fill _ _ k hk, fillPalette_read _, rfl, rfl, rfl, rfl, rfl, rfl, rfl, rfl, rfl,
    fbRead_replicate_nil Config.fbHeight, List.length_replicate, rfl, rfl, rfl, rfl, rfl, rfl, rfl, rfl, ?_⟩
  exact vectorTarget_eq_peek (by decide) (by decide) s

end Sys2Proof.Machine

namespace Sys2Proof.Machine

/-! What the parts of a dot find and leave (63_picture_rendering.md R411), for O52 to O58. -/

section
variable (chr : Memory) (m : Mirroring) (g : Picture)

/-- The lines and the layers with which the background pipeline runs (R411, R42). -/
theorem rendered_iff : (renderingEnabled g && renderLine g) = true ↔
    (g.scanline ≤ 239 ∨ g.scanline = 261) ∧ (g.mask.getLsbD 3 = true ∨ g.mask.getLsbD 4 = true) := by
  simp [renderingEnabled, renderLine, maskBg, maskSp, and_comm]

theorem fetchDot_iff (d : Nat) : fetchDot d = true ↔ (1 ≤ d ∧ d ≤ 256) ∨ (321 ≤ d ∧ d ≤ 336) := by simp [fetchDot]

theorem shiftDot_iff (d : Nat) : shiftDot d = true ↔ (2 ≤ d ∧ d ≤ 257) ∨ (322 ≤ d ∧ d ≤ 337) := by simp [shiftDot]

theorem reloadDot_iff (d : Nat) : reloadDot d = true ↔ (9 ≤ d ∧ d ≤ 257 ∧ d % 8 = 1) ∨ d = 329 ∨ d = 337 := by
  simp [reloadDot, and_assoc, or_assoc]

/-- The frame start (R413). -/
theorem flagEvents_frameStart {g : Picture} (hl : g.scanline = 261) (hd : g.dot = 1) : flagEvents g = frameStartClear g := by
  rw [flagEvents, if_neg (by omega), if_pos ⟨hl, hd⟩]

/-- The flag events fall on no visible line (R413). -/
theorem flagEvents_visible {g : Picture} (hl : g.scanline ≤ 239) : flagEvents g = g := by
  rw [flagEvents, if_neg (by omega), if_neg (by omega)]

/-- Only the frame start clears S, O and the line buffer (R413). -/
theorem flagEvents_spriteState {g : Picture} (h : ¬(g.scanline = 261 ∧ g.dot = 1)) :
    (flagEvents g).spriteZeroHit = g.spriteZeroHit ∧ (flagEvents g).sprites = g.sprites ∧
      (flagEvents g).spriteOverflow = g.spriteOverflow := by
  rw [flagEvents, if_neg h]
  split <;> exact ⟨rfl, rfl, rfl⟩

/-- Part (2) leaves S. -/
theorem shifters_spriteZeroHit : (shifters g).spriteZeroHit = g.spriteZeroHit := by
  obtain ⟨_, _, _, _, e⟩ := shifters_frame g
  rw [e]

/-- Part (3) draws at the dots 1 to 256 of the visible lines (R411). -/
theorem pixelPart_visible {g : Picture} (h : g.scanline ≤ 239 ∧ 1 ≤ g.dot ∧ g.dot ≤ 256) :
    pixelPart g = pixel g.scanline (g.dot - 1) g := if_pos h

/-- Part (3) does nothing at any other dot. -/
theorem pixelPart_hidden {g : Picture} (h : ¬(g.scanline ≤ 239 ∧ 1 ≤ g.dot ∧ g.dot ≤ 256)) : pixelPart g = g := if_neg h

/-- What part (4) finds: the Picture Generator as the dot began, but for the flags, the count, the line buffer, the shifters
and FB. -/
theorem beforeFetches_frame : ∃ vb z o fc sp bl bh al ah fb, pixelPart (shifters (flagEvents g)) = { g with
    vblank := vb, spriteZeroHit := z, spriteOverflow := o, frameCount := fc, sprites := sp, bgLo := bl, bgHi := bh, atLo := al
    atHi := ah, fb := fb } := by
  obtain ⟨_, _, e3⟩ := pixelPart_frame (shifters (flagEvents g))
  obtain ⟨_, _, _, _, e2⟩ := shifters_frame (flagEvents g)
  obtain ⟨_, _, _, _, _, e1⟩ := flagEvents_frame g
  rw [e3, e2, e1]
  exact ⟨_, _, _, _, _, _, _, _, _, _, rfl⟩

end

/-! The frame's events and what a dot leaves (O52, O53). -/

/-- The dot that asks for an NMI (R413). -/
theorem dotRequestsNmi_iff (g : Picture) : dotRequestsNmi g = true ↔ g.scanline = 241 ∧ g.dot = 1 ∧ g.ctrl.getLsbD 7 = true := by
  simp [dotRequestsNmi, ctrlNmi, and_assoc]

/-- After the frame start's dot S, O and the line buffer are clear: no later part of the same dot sets them (R413). -/
theorem ppuDot_frameStart (chr : Memory) (m : Mirroring) {g : Picture} (hl : g.scanline = 261) (hd : g.dot = 1) :
    (ppuDot chr m g).spriteZeroHit = false ∧ (ppuDot chr m g).spriteOverflow = false ∧ (ppuDot chr m g).sprites = [] := by
  obtain ⟨-, -, hdot, hline⟩ := shiftedFields g
  obtain ⟨hsprites, hover⟩ := ppuDot_sprites chr m g
  have hpart : spritePart chr (flagEvents g) = flagEvents g := by
    rw [flagEvents_frameStart hl hd]
    exact if_neg (by simp only [frameStartClear]; omega)
  rw [ppuDot_spriteZeroHit, pixelPart_hidden (by omega), shifters_spriteZeroHit, hsprites, hover, hpart, flagEvents_frameStart hl hd]
  exact ⟨rfl, rfl, rfl⟩

/-- Settles O52: the position, V and the count by the support layer, the rest of the frame start by `ppuDot_frameStart`. -/
theorem frameEvents : Obligations.FrameEvents := by
  intro chr m g
  refine ⟨ppuDot_dot chr m g, ppuDot_scanline chr m g, fun hl hd => ⟨?_, ?_, ?_⟩, fun hl hd => ?_, fun h => ⟨?_, ?_⟩, fun h => ?_⟩
  · rw [ppuDot_vblank, if_pos ⟨hl, hd⟩]
  · rw [ppuDot_frameCount, if_pos ⟨hl, hd⟩]
  · simp [dotRequestsNmi, ctrlNmi, hl, hd]
  · obtain ⟨hzero, hover, hsprites⟩ := ppuDot_frameStart chr m hl hd
    refine ⟨?_, hzero, hover, hsprites, ?_⟩
    · rw [ppuDot_vblank, if_neg (by omega), if_pos ⟨hl, hd⟩]
    · rw [ppuDot_frameCount, if_neg (by omega)]
  · rw [ppuDot_vblank, if_neg (by omega), if_neg (by omega)]
  · rw [ppuDot_frameCount, if_neg (by omega)]
  · obtain ⟨hl, hd, -⟩ := (dotRequestsNmi_iff g).mp h
    exact ⟨hl, hd⟩

/-- Settles O53: part (3) writes one cell of FB or none, and no part writes a register but `v`. -/
theorem onePixelPerDot : Obligations.OnePixelPerDot := by
  intro chr m g
  obtain ⟨hfb, -, hdot, hline⟩ := shiftedFields g
  refine ⟨fun row col hcell => ?_, ?_, ppuDot_ctrl chr m g, ppuDot_mask chr m g, ppuDot_oamAddr chr m g, ppuDot_t chr m g,
    ppuDot_fineX chr m g, ppuDot_w chr m g, ppuDot_buffer chr m g, ppuDot_oam chr m g, ppuDot_pal chr m g, ppuDot_vram chr m g⟩
  all_goals
    rw [ppuDot_fb]
    obtain e | ⟨hvisible, idx, e⟩ := pixelPart_fb_cases (shifters (flagEvents g))
  · rw [e, hfb]
  · rw [e, hfb, hline, hdot, fbRead_fbWrite_other _ _ _ _ _ _ (by omega)]
  · rw [e, hfb]
  · rw [e, fbWrite_length, hfb]

end Sys2Proof.Machine

namespace Sys2Proof.Machine

/-! The scroll address by its fields (R45, R425). -/

/-- A number written with `n` bits below another. -/
theorem append_toNat {k n : Nat} (x : BitVec k) (y : BitVec n) : (x ++ y).toNat = 2 ^ n * x.toNat + y.toNat := by
  rw [BitVec.toNat_append, Nat.shiftLeft_eq, Nat.mul_comm, Nat.two_pow_add_eq_or_of_lt y.isLt]

/-- A scroll address: fine Y, the vertical and the horizontal nametable bit, coarse Y, coarse X (R45). -/
def scrollOf (fy : BitVec 3) (nv nh : BitVec 1) (cy cx : BitVec 5) : BitVec 15 := fy ++ nv ++ nh ++ cy ++ cx

section
variable (fy : BitVec 3) (nv nh : BitVec 1) (cy cx : BitVec 5)

theorem scrollOf_toNat : (scrollOf fy nv nh cy cx).toNat =
    4096 * fy.toNat + 2048 * nv.toNat + 1024 * nh.toNat + 32 * cy.toNat + cx.toNat := by
  simp only [scrollOf, append_toNat]
  omega

theorem scrollOf_and (fy' : BitVec 3) (nv' nh' : BitVec 1) (cy' cx' : BitVec 5) : scrollOf fy nv nh cy cx &&& scrollOf fy' nv' nh' cy' cx' =
    scrollOf (fy &&& fy') (nv &&& nv') (nh &&& nh') (cy &&& cy') (cx &&& cx') := by
  simp only [scrollOf, ← BitVec.and_append]

theorem scrollOf_or (fy' : BitVec 3) (nv' nh' : BitVec 1) (cy' cx' : BitVec 5) : scrollOf fy nv nh cy cx ||| scrollOf fy' nv' nh' cy' cx' =
    scrollOf (fy ||| fy') (nv ||| nv') (nh ||| nh') (cy ||| cy') (cx ||| cx') := by
  simp only [scrollOf, ← BitVec.or_append]

theorem scrollOf_xor (fy' : BitVec 3) (nv' nh' : BitVec 1) (cy' cx' : BitVec 5) : scrollOf fy nv nh cy cx ^^^ scrollOf fy' nv' nh' cy' cx' =
    scrollOf (fy ^^^ fy') (nv ^^^ nv') (nh ^^^ nh') (cy ^^^ cy') (cx ^^^ cx') := by
  simp only [scrollOf, ← BitVec.xor_append]

/-- The masks of R425, by the fields they keep. -/
theorem scrollMask_cx : 0x001F#15 = scrollOf 0#3 0#1 0#1 0#5 (BitVec.allOnes 5) := rfl
theorem scrollMask_notCx : 0x7FE0#15 = scrollOf (BitVec.allOnes 3) (BitVec.allOnes 1) (BitVec.allOnes 1) (BitVec.allOnes 5) 0#5 := rfl
theorem scrollMask_nh : 0x0400#15 = scrollOf 0#3 0#1 (BitVec.allOnes 1) 0#5 0#5 := rfl
theorem scrollMask_nv : 0x0800#15 = scrollOf 0#3 (BitVec.allOnes 1) 0#1 0#5 0#5 := rfl
theorem scrollMask_fy : 0x7000#15 = scrollOf (BitVec.allOnes 3) 0#1 0#1 0#5 0#5 := rfl
theorem scrollMask_notFy : 0x0FFF#15 = scrollOf 0#3 (BitVec.allOnes 1) (BitVec.allOnes 1) (BitVec.allOnes 5) (BitVec.allOnes 5) := rfl
theorem scrollMask_notCy : 0x7C1F#15 = scrollOf (BitVec.allOnes 3) (BitVec.allOnes 1) (BitVec.allOnes 1) 0#5 (BitVec.allOnes 5) := rfl

/-- Coarse X counts to 31, then switches the horizontal nametable (R425). -/
theorem incrementCoarseX_scrollOf : incrementCoarseX (scrollOf fy nv nh cy cx) =
    if cx.toNat = 31 then scrollOf fy nv (~~~nh) cy 0#5 else scrollOf fy nv nh cy (cx + 1#5) := by
  have hcond : scrollOf fy nv nh cy cx &&& 0x001F#15 = 31#15 ↔ cx.toNat = 31 := by
    rw [scrollMask_cx, scrollOf_and, ← BitVec.toNat_inj, scrollOf_toNat, scrollOf_toNat]
    simp only [BitVec.and_allOnes, BitVec.and_zero, BitVec.toNat_ofNat, BitVec.toNat_allOnes]
    omega
  rw [incrementCoarseX, if_congr hcond rfl rfl]
  split
  · rw [scrollMask_notCx, scrollOf_and, scrollMask_nh, scrollOf_xor]
    simp only [BitVec.and_allOnes, BitVec.and_zero, BitVec.xor_allOnes, BitVec.xor_zero]
  · apply BitVec.eq_of_toNat_eq
    rw [BitVec.toNat_add, scrollOf_toNat, scrollOf_toNat, BitVec.toNat_add]
    simp only [BitVec.toNat_ofNat]
    omega

/-- Coarse Y as R425 extracts it. -/
theorem coarseY_scrollOf : (scrollOf fy nv nh cy cx >>> 5) &&& 0x1F#15 = cy.setWidth 15 := by
  apply BitVec.eq_of_toNat_eq
  rw [BitVec.toNat_and, BitVec.toNat_ushiftRight, scrollOf_toNat, BitVec.toNat_setWidth, Nat.shiftRight_eq_div_pow]
  simp only [BitVec.toNat_ofNat]
  rw [show 31 % 2 ^ 15 = 2 ^ 5 - 1 from rfl, Nat.and_two_pow_sub_one_eq_mod]
  omega

/-- Coarse Y as R425 puts it back, one further. -/
theorem shiftedCoarseY (h : cy.toNat ≠ 31) : (cy.setWidth 15 + 1#15) <<< 5 = scrollOf 0#3 0#1 0#1 (cy + 1#5) 0#5 := by
  apply BitVec.eq_of_toNat_eq
  rw [BitVec.toNat_shiftLeft, BitVec.toNat_add, BitVec.toNat_setWidth, scrollOf_toNat, BitVec.toNat_add, Nat.shiftLeft_eq]
  simp only [BitVec.toNat_ofNat]
  omega

/-- Fine Y counts to 7, then coarse Y to 29 with a switch of the vertical nametable, or to 31 without (R425). -/
theorem incrementY_scrollOf : incrementY (scrollOf fy nv nh cy cx) =
    if fy.toNat ≠ 7 then scrollOf (fy + 1#3) nv nh cy cx else if cy.toNat = 29 then scrollOf 0#3 (~~~nv) nh 0#5 cx
    else if cy.toNat = 31 then scrollOf 0#3 nv nh 0#5 cx else scrollOf 0#3 nv nh (cy + 1#5) cx := by
  have hcond : scrollOf fy nv nh cy cx &&& 0x7000#15 = 0x7000#15 ↔ fy.toNat = 7 := by
    rw [scrollMask_fy, scrollOf_and, ← BitVec.toNat_inj, scrollOf_toNat, scrollOf_toNat]
    simp only [BitVec.and_allOnes, BitVec.and_zero, BitVec.toNat_ofNat, BitVec.toNat_allOnes]
    omega
  have hcoarse (n : Nat) (hn : n < 32) : cy.setWidth 15 = BitVec.ofNat 15 n ↔ cy.toNat = n := by
    rw [← BitVec.toNat_inj, BitVec.toNat_setWidth, BitVec.toNat_ofNat]
    omega
  have hbase : scrollOf fy nv nh cy cx &&& 0x0FFF#15 = scrollOf 0#3 nv nh cy cx := by
    rw [scrollMask_notFy, scrollOf_and]
    simp only [BitVec.and_allOnes, BitVec.and_zero]
  have hclear : scrollOf 0#3 nv nh cy cx &&& 0x7C1F#15 = scrollOf 0#3 nv nh 0#5 cx := by
    rw [scrollMask_notCy, scrollOf_and]
    simp only [BitVec.and_allOnes, BitVec.and_zero]
  rw [incrementY, if_congr hcond rfl rfl]
  by_cases hfy : fy.toNat = 7
  · rw [if_pos hfy, if_neg (not_not.mpr hfy)]
    simp only [hbase, coarseY_scrollOf, hcoarse 29 (by decide), hcoarse 31 (by decide), hclear]
    split
    · rw [scrollMask_nv, scrollOf_xor, scrollMask_notCy, scrollOf_and]
      simp only [BitVec.and_allOnes, BitVec.and_zero, BitVec.xor_allOnes, BitVec.xor_zero]
    · split
      · rfl
      · next h =>
        rw [shiftedCoarseY cy h, scrollOf_or]
        simp only [BitVec.or_zero, BitVec.zero_or]
  · rw [if_neg hfy, if_pos hfy]
    apply BitVec.eq_of_toNat_eq
    rw [BitVec.toNat_add, scrollOf_toNat, scrollOf_toNat, BitVec.toNat_add]
    simp only [BitVec.toNat_ofNat]
    omega

end

/-- A scroll address from numbers, as the rules write it (R45). -/
theorem ofNat_scroll {fy nv nh cy cx : Nat} (hnv : nv < 2) (hnh : nh < 2) (hcy : cy < 32) (hcx : cx < 32) :
    BitVec.ofNat 15 (4096 * fy + 2048 * nv + 1024 * nh + 32 * cy + cx) =
      scrollOf (BitVec.ofNat 3 fy) (BitVec.ofNat 1 nv) (BitVec.ofNat 1 nh) (BitVec.ofNat 5 cy) (BitVec.ofNat 5 cx) := by
  apply BitVec.eq_of_toNat_eq
  rw [scrollOf_toNat]
  simp only [BitVec.toNat_ofNat]
  omega

/-- The other nametable bit. -/
theorem not_ofNat_one {n : Nat} (h : n < 2) : ~~~(BitVec.ofNat 1 n) = BitVec.ofNat 1 (1 - n) := by
  obtain rfl | rfl : n = 0 ∨ n = 1 := by omega
  all_goals rfl

/-! The scroll updates of a dot (R425 to R427, R411 part (4)). -/

/-- `v` after part (4) of a dot of a rendered line with rendering on. -/
def scrolledV (line dot : Nat) (v t : BitVec 15) : BitVec 15 :=
  let v1 := if dot % 8 = 0 ∧ ((1 ≤ dot ∧ dot ≤ 256) ∨ (321 ≤ dot ∧ dot ≤ 336)) then incrementCoarseX v else v
  let v2 := if dot = 256 then incrementY v1 else v1
  let v3 := if dot = 257 then copyHorizontal v2 t else v2
  if line = 261 ∧ 280 ≤ dot ∧ dot ≤ 304 then copyVertical v3 t else v3

section
variable (chr : Memory) (m : Mirroring) (g : Picture)

theorem bgFetchPhase_v (p : Nat) : (bgFetchPhase chr m p g).v = if p = 7 then incrementCoarseX g.v else g.v := by
  unfold bgFetchPhase
  split <;> simp_all

theorem bgFetchPhase_t (p : Nat) : (bgFetchPhase chr m p g).t = g.t := by
  obtain ⟨_, _, _, _, _, e⟩ := bgFetchPhase_frame chr m g p
  rw [e]

/-- Phase 7 is the dots that 8 divides. -/
theorem fetches_phase7 : (if fetchDot g.dot = true then bgFetchPhase chr m ((g.dot - 1) % 8) g else g).v =
    if g.dot % 8 = 0 ∧ ((1 ≤ g.dot ∧ g.dot ≤ 256) ∨ (321 ≤ g.dot ∧ g.dot ≤ 336)) then incrementCoarseX g.v else g.v := by
  by_cases hf : fetchDot g.dot = true
  · have hrange := (fetchDot_iff g.dot).mp hf
    rw [if_pos hf, bgFetchPhase_v]
    exact if_congr (by omega) rfl rfl
  · rw [if_neg hf, if_neg (fun h => hf ((fetchDot_iff g.dot).mpr h.2))]

/-- What part (4) does to `v`. -/
theorem fetches_v : (fetches chr m g).v =
    if (renderingEnabled g && renderLine g) = true then scrolledV g.scanline g.dot g.v g.t else g.v := by
  have ht : (if fetchDot g.dot = true then bgFetchPhase chr m ((g.dot - 1) % 8) g else g).t = g.t := by
    split
    · exact bgFetchPhase_t chr m g _
    · rfl
  have hv := fetches_phase7 chr m g
  unfold fetches
  split
  · simp only
    generalize (if fetchDot g.dot = true then bgFetchPhase chr m ((g.dot - 1) % 8) g else g) = p at ht hv ⊢
    simp only [scrolledV, apply_ite Picture.v, apply_ite Picture.t, ite_self, hv, ht]
  · rfl

/-- What a dot does to `v`. -/
theorem ppuDot_v : (ppuDot chr m g).v =
    if (renderingEnabled g && renderLine g) = true then scrolledV g.scanline g.dot g.v g.t else g.v := by
  obtain ⟨_, _, e6⟩ := advancePosition_frame (dotWork chr m g)
  obtain ⟨_, _, e5⟩ := spritePart_frame chr (fetches chr m (pixelPart (shifters (flagEvents g))))
  obtain ⟨_, _, _, _, _, _, _, _, _, _, e⟩ := beforeFetches_frame g
  calc (ppuDot chr m g).v = (fetches chr m (pixelPart (shifters (flagEvents g)))).v := by rw [ppuDot_eq, e6, dotWork, e5]
    _ = _ := by rw [fetches_v, e]; rfl

end

/-- Settles O57: the two increments by the fields of `v`, and the schedule by `scrolledV`. -/
theorem scrollIncrements : Obligations.ScrollIncrements := by
  refine ⟨fun fy hfy nv hnv nh hnh cy hcy cx hcx => ?_, fun chr m g => ?_⟩
  · have hfy3 : (BitVec.ofNat 3 fy).toNat = fy := Nat.mod_eq_of_lt hfy
    have hcy5 : (BitVec.ofNat 5 cy).toNat = cy := Nat.mod_eq_of_lt hcy
    have hcx5 : (BitVec.ofNat 5 cx).toNat = cx := Nat.mod_eq_of_lt hcx
    intro pack
    simp only [pack]
    rw [ofNat_scroll hnv hnh hcy hcx, incrementCoarseX_scrollOf, incrementY_scrollOf, hfy3, hcy5, hcx5, not_ofNat_one hnv,
      not_ofNat_one hnh]
    constructor
    · by_cases hcx31 : cx = 31
      · rw [if_pos hcx31, if_pos hcx31, ofNat_scroll hnv (by omega) hcy (by decide)]
      · rw [if_neg hcx31, if_neg hcx31, ofNat_scroll hnv hnh hcy (by omega), BitVec.ofNat_add]
    · by_cases hfy7 : fy ≠ 7
      · rw [if_pos hfy7, if_pos hfy7, ofNat_scroll hnv hnh hcy hcx, BitVec.ofNat_add]
      rw [if_neg hfy7, if_neg hfy7]
      by_cases hcy29 : cy = 29
      · rw [if_pos hcy29, if_pos hcy29, ofNat_scroll (by omega) hnh (by decide) hcx]
      rw [if_neg hcy29, if_neg hcy29]
      by_cases hcy31 : cy = 31
      · rw [if_pos hcy31, if_pos hcy31, ofNat_scroll hnv hnh (by decide) hcx]
      · rw [if_neg hcy31, if_neg hcy31, ofNat_scroll hnv hnh (by omega) hcx, BitVec.ofNat_add]
  · intro line on h
    have hactive (hline : line) (hon : on) : h.v = scrolledV g.scanline g.dot g.v g.t :=
      (ppuDot_v chr m g).trans (if_pos ((rendered_iff g).mpr ⟨hline, hon⟩))
    have hidle (hoff : ¬(line ∧ on)) : h.v = g.v := (ppuDot_v chr m g).trans (if_neg (mt (rendered_iff g).mp hoff))
    refine ⟨hidle, fun hline hon hd => ?_, fun hline hon hd => ?_, fun hon hl hlo hhi => ?_, fun hline hon hmod hd => ?_,
      fun hmod hd hl => ?_, ppuDot_fineX chr m g⟩
    · rw [hactive hline hon, scrolledV, if_neg (by omega), if_neg (by omega), if_pos hd, if_pos (by omega)]
    · rw [hactive hline hon, scrolledV, if_neg (by omega), if_pos hd, if_neg (by omega), if_neg (by omega), copyHorizontal]
    · rw [hactive (.inr hl) hon, scrolledV, if_pos ⟨hl, hlo, hhi⟩, if_neg (by omega), if_neg (by omega), if_neg (by omega),
        copyVertical]
    · rw [hactive hline hon, scrolledV, if_neg (by omega), if_neg (by omega), if_neg (by omega), if_pos (by omega)]
    · by_cases hrendered : line ∧ on
      · rw [hactive hrendered.1 hrendered.2, scrolledV, if_neg hl, if_neg hd, if_neg (by omega), if_neg hmod]
      · exact hidle hrendered

end Sys2Proof.Machine

namespace Sys2Proof.Machine

/-! The addresses of the fetches by arithmetic (R424, R443). -/

/-- A conjunction with `k` ones from bit `i` on keeps that field of a number. -/
theorem and_field (n k i : Nat) : n &&& (2 ^ k - 1) * 2 ^ i = n / 2 ^ i % 2 ^ k * 2 ^ i := by
  apply Nat.eq_of_testBit_eq
  intro j
  rw [Nat.testBit_and, Nat.testBit_mul_two_pow, Nat.testBit_mul_two_pow, Nat.testBit_two_pow_sub_one, Nat.testBit_mod_two_pow,
    Nat.testBit_div_two_pow]
  by_cases hj : i ≤ j
  · simp [hj, Bool.and_comm]
  · simp [hj]

/-- The nametable byte of the tile that `v` selects (R424). -/
theorem nametableAddr_eq (v : BitVec 15) : nametableAddr v = BitVec.ofNat 14 (0x2000 + v.toNat % 4096) := by
  have hmask : (v &&& 0x0FFF#15).toNat = v.toNat % 4096 := by
    rw [BitVec.toNat_and]
    exact Nat.and_two_pow_sub_one_eq_mod v.toNat 12
  rw [nametableAddr, ← BitVec.ofNat_toNat, hmask, ← BitVec.ofNat_or]
  exact congrArg _ (Nat.two_pow_add_eq_or_of_lt (i := 13) (by omega) 1).symm

/-- A field of `v`, shifted down and masked as R424 extracts it. -/
theorem shiftedField (v : BitVec 15) {i j k mask : Nat} (hmask : mask % 2 ^ 15 = (2 ^ k - 1) * 2 ^ j) :
    ((v >>> i) &&& BitVec.ofNat 15 mask).toNat = v.toNat / 2 ^ (i + j) % 2 ^ k * 2 ^ j := by
  rw [BitVec.toNat_and, BitVec.toNat_ofNat, hmask, and_field, BitVec.toNat_ushiftRight, Nat.shiftRight_eq_div_pow,
    Nat.div_div_eq_div_mul, ← Nat.pow_add]

/-- The address of the byte with the palette numbers of the tile that `v` selects: one for each four rows and four columns of a
nametable (R424). -/
theorem attributeAddr_eq (v : BitVec 15) : attributeAddr v =
    BitVec.ofNat 14 (0x23C0 + v.toNat / 1024 % 4 * 1024 + v.toNat / 128 % 8 * 8 + v.toNat / 4 % 8) := by
  have all : ∀ n < 4, ∀ row < 8, ∀ col < 8, 0x23C0#14 ||| BitVec.ofNat 14 (n * 1024) ||| BitVec.ofNat 14 (row * 8) |||
      BitVec.ofNat 14 col = BitVec.ofNat 14 (0x23C0 + n * 1024 + row * 8 + col) := by decide
  have htable : (v &&& 0x0C00#15).toNat = v.toNat / 1024 % 4 * 1024 := shiftedField v (i := 0) (j := 10) (k := 2) rfl
  have hrow : ((v >>> 4) &&& 0x38#15).toNat = v.toNat / 128 % 8 * 8 := shiftedField v (j := 3) (k := 3) rfl
  have hcol : ((v >>> 2) &&& 0x07#15).toNat = v.toNat / 4 % 8 * 1 := shiftedField v (j := 0) (k := 3) rfl
  rw [attributeAddr]
  simp only [← BitVec.ofNat_toNat, htable, hrow, hcol, Nat.mul_one]
  exact all _ (Nat.mod_lt _ (by decide)) _ (Nat.mod_lt _ (by decide)) _ (Nat.mod_lt _ (by decide))

/-- The palette number of the tile that `v` selects: the two bits of its quarter of that byte (R424). -/
theorem attributeBits_eq (v : BitVec 15) (b : Byte) : attributeBits v b =
    (b >>> (v.toNat / 64 % 2 * 4 + v.toNat / 2 % 2 * 2)).setWidth 2 := by
  have all : ∀ row < 2, ∀ col < 2, row * 4 ||| col * 2 = row * 4 + col * 2 := by decide
  have hrow : ((v >>> 4) &&& 4#15).toNat = v.toNat / 64 % 2 * 4 := shiftedField v (j := 2) (k := 1) rfl
  have hcol : (v &&& 2#15).toNat = v.toNat / 2 % 2 * 2 := shiftedField v (i := 0) (j := 1) (k := 1) rfl
  simp only [attributeBits, BitVec.toNat_or, hrow, hcol]
  rw [all _ (Nat.mod_lt _ (by decide)) _ (Nat.mod_lt _ (by decide))]

/-- A shift to the left of a 14-bit number is a product. -/
theorem ofNat_shiftLeft (n i : Nat) : BitVec.ofNat 14 n <<< i = BitVec.ofNat 14 (2 ^ i * n) := by
  apply BitVec.eq_of_toNat_eq
  rw [BitVec.toNat_shiftLeft, BitVec.toNat_ofNat, BitVec.toNat_ofNat, Nat.shiftLeft_eq, Nat.mod_mul_mod, Nat.mul_comm]

/-- A pattern address by its table, its tile and its row: 16 bytes a tile, 8 for each plane (R424, R443). -/
theorem patternFields_eq (table : Nat) {tile row : Nat} (htile : tile < 256) (hrow : row < 16) :
    BitVec.ofNat 14 (2 ^ 12 * table) ||| BitVec.ofNat 14 (2 ^ 4 * tile) ||| BitVec.ofNat 14 row =
      BitVec.ofNat 14 (4096 * table + 16 * tile + row) := by
  have hlow := Nat.two_pow_add_eq_or_of_lt (i := 4) hrow tile
  have hall := Nat.two_pow_add_eq_or_of_lt (i := 12) (show 2 ^ 4 * tile + row < 2 ^ 12 by omega) table
  rw [BitVec.or_assoc, ← BitVec.ofNat_or, ← BitVec.ofNat_or, ← hlow, ← hall, ← Nat.add_assoc]
  rfl

/-- The pattern byte of a row of a tile, in the table that a bit of CTRL selects (R424, R443). -/
theorem patternRow_eq (high : Bool) (tile : Byte) {row : Nat} (hrow : row < 16) :
    (if high then 0x1000#14 else 0#14) ||| (tile.setWidth 14 <<< 4) ||| BitVec.ofNat 14 row =
      BitVec.ofNat 14 ((if high then 4096 else 0) + 16 * tile.toNat + row) := by
  rw [← BitVec.ofNat_toNat, ofNat_shiftLeft]
  cases high
  · exact patternFields_eq 0 tile.isLt hrow
  · exact patternFields_eq 1 tile.isLt hrow

/-- Row `fine Y` of the tile that the nametable latch holds, plane 0, and plane 1 eight bytes above it (R424). -/
theorem patternAddr_eq (g : Picture) {plane : Nat} (hplane : plane = 0 ∨ plane = 8) : patternAddr g ||| BitVec.ofNat 14 plane =
    BitVec.ofNat 14 ((if g.ctrl.getLsbD 4 then 4096 else 0) + 16 * g.ntLatch.toNat + g.v.toNat / 4096 + plane) := by
  have all : ∀ y < 8, y ||| 8 = y + 8 := by decide
  have hv := g.v.isLt
  have hfine : ((g.v >>> 12) &&& 7#15).toNat = g.v.toNat / 4096 := by
    rw [shiftedField g.v (j := 0) (k := 3) rfl]
    omega
  have hrow : g.v.toNat / 4096 ||| plane = g.v.toNat / 4096 + plane := by
    rcases hplane with rfl | rfl
    · exact Nat.or_zero _
    · exact all _ (by omega)
  rw [patternAddr, ← BitVec.ofNat_toNat 14 ((g.v >>> 12) &&& 7#15), hfine, BitVec.or_assoc, ← BitVec.ofNat_or, hrow,
    patternRow_eq (ctrlBgt g) g.ntLatch (by omega), ← Nat.add_assoc]
  rfl

/-! The shifters and the latches of a dot (R422 to R424, R411 parts (2) and (4)). -/

section
variable (chr : Memory) (m : Mirroring) (g : Picture)

/-- Part (2) moves nothing on other lines, with rendering off, and at other dots; every dot that reloads also shifts. -/
theorem shifters_idle {g : Picture} (h : ¬((renderingEnabled g && renderLine g) = true ∧ shiftDot g.dot = true)) : shifters g = g := by
  rw [shifters]
  split
  · next hrendered =>
    have hshift : ¬(shiftDot g.dot = true) := fun hs => h ⟨hrendered, hs⟩
    have hreload : ¬(reloadDot g.dot = true) := by
      rw [reloadDot_iff]
      rw [shiftDot_iff] at hshift
      omega
    simp only [if_neg hshift, if_neg hreload]
  · rfl

theorem shifters_shift {g : Picture} (h : (renderingEnabled g && renderLine g) = true) (hs : shiftDot g.dot = true)
    (hr : ¬(reloadDot g.dot = true)) : shifters g = bgShift g := by
  rw [shifters, if_pos h]
  simp only [if_pos hs, if_neg hr]

theorem shifters_reload {g : Picture} (h : (renderingEnabled g && renderLine g) = true) (hr : reloadDot g.dot = true) :
    shifters g = bgReload (bgShift g) := by
  have hs : shiftDot g.dot = true := by
    rw [shiftDot_iff]
    rw [reloadDot_iff] at hr
    omega
  rw [shifters, if_pos h]
  simp only [if_pos hs, if_pos hr]

/-- Each fetch latch is filled in one phase, from the address of R424. -/
theorem bgFetchPhase_ntLatch (p : Nat) : (bgFetchPhase chr m p g).ntLatch =
    if p = 0 then ppuRead chr m g (BitVec.ofNat 14 (0x2000 + g.v.toNat % 4096)) else g.ntLatch := by
  rw [← nametableAddr_eq]
  unfold bgFetchPhase
  split <;> simp_all

theorem bgFetchPhase_atLatch (p : Nat) : (bgFetchPhase chr m p g).atLatch = if p = 2 then
    (ppuRead chr m g (BitVec.ofNat 14 (0x23C0 + g.v.toNat / 1024 % 4 * 1024 + g.v.toNat / 128 % 8 * 8 + g.v.toNat / 4 % 8)) >>>
      (g.v.toNat / 64 % 2 * 4 + g.v.toNat / 2 % 2 * 2)).setWidth 2 else g.atLatch := by
  rw [← attributeAddr_eq, ← attributeBits_eq]
  unfold bgFetchPhase
  split <;> simp_all

theorem bgFetchPhase_patLoLatch (p : Nat) : (bgFetchPhase chr m p g).patLoLatch = if p = 4 then
    ppuRead chr m g (BitVec.ofNat 14 ((if g.ctrl.getLsbD 4 then 4096 else 0) + 16 * g.ntLatch.toNat + g.v.toNat / 4096))
      else g.patLoLatch := by
  rw [← Nat.add_zero ((if g.ctrl.getLsbD 4 then 4096 else 0) + _ + _), ← patternAddr_eq g (.inl rfl), BitVec.or_zero]
  unfold bgFetchPhase
  split <;> simp_all

theorem bgFetchPhase_patHiLatch (p : Nat) : (bgFetchPhase chr m p g).patHiLatch = if p = 6 then
    ppuRead chr m g (BitVec.ofNat 14 ((if g.ctrl.getLsbD 4 then 4096 else 0) + 16 * g.ntLatch.toNat + g.v.toNat / 4096 + 8))
      else g.patHiLatch := by
  rw [← patternAddr_eq g (.inr rfl)]
  unfold bgFetchPhase
  split <;> simp_all

/-- A latch that one phase fills is filled at the dots of that phase, where the pipeline runs (R411 part (4)). -/
theorem fetches_latch {α : Type} (latch : Picture → α) (hlatch : ∀ (p : Picture) v', latch { p with v := v' } = latch p)
    {phase : Nat} (hphase : phase < 7) {fetched : α}
    (hfetch : ∀ p, latch (bgFetchPhase chr m p g) = if p = phase then fetched else latch g) :
    latch (fetches chr m g) = if (((g.scanline ≤ 239 ∨ g.scanline = 261) ∧ (g.mask.getLsbD 3 = true ∨ g.mask.getLsbD 4 = true)) ∧
      ((1 ≤ g.dot ∧ g.dot ≤ 256) ∨ (321 ≤ g.dot ∧ g.dot ≤ 336))) ∧ g.dot % 8 = phase + 1 then fetched else latch g := by
  rw [fetches_field chr m latch hlatch, hfetch, ← ite_and]
  refine if_congr ?_ rfl rfl
  rw [rendered_iff, fetchDot_iff]
  refine ⟨fun h => ⟨h.1, ?_⟩, fun h => ⟨h.1, ?_⟩⟩ <;> omega

end

/-- Settles O58: the shifters by part (2) and the latches by part (4), which find the position, the registers and the memories as the dot
began. -/
theorem backgroundPipeline : Obligations.BackgroundPipeline := by
  intro chr m g h d active shifts reloads fetching lane ones read v pattern
  obtain ⟨_, _, _, _, _, e1⟩ := flagEvents_frame g
  obtain ⟨_, _, _, _, _, _, _, _, _, _, e⟩ := beforeFetches_frame g
  obtain ⟨hbgLo, hbgHi, hatLo, hatHi⟩ := ppuDot_shifters chr m g
  obtain ⟨hnt, hat, hlo, hhi⟩ := ppuDot_latches chr m g
  rw [e] at hnt hat hlo hhi
  have hactive : (renderingEnabled (flagEvents g) && renderLine (flagEvents g)) = true ↔ active := by
    rw [e1]
    exact rendered_iff _
  have hshifts : shiftDot (flagEvents g).dot = true ↔ (2 ≤ d ∧ d ≤ 257) ∨ (322 ≤ d ∧ d ≤ 337) := by rw [e1, shiftDot_iff]
  have hreloads : reloadDot (flagEvents g).dot = true ↔ (9 ≤ d ∧ d ≤ 257 ∧ d % 8 = 1) ∨ d = 329 ∨ d = 337 := by
    rw [e1, reloadDot_iff]
  refine ⟨fun hs => ?_, fun hs hr => ?_, fun hr => ?_, ?_, ?_, ?_, ?_⟩
  · rw [hbgLo, hbgHi, hatLo, hatHi, shifters_idle (by rw [hactive, hshifts]; exact hs), e1]
    exact ⟨rfl, rfl, rfl, rfl⟩
  · rw [hbgLo, hbgHi, hatLo, hatHi, shifters_shift (hactive.mpr hs.1) (hshifts.mpr hs.2) (fun h => hr ⟨hs.1, hreloads.mp h⟩), e1]
    exact ⟨rfl, rfl, rfl, rfl⟩
  · rw [hbgLo, hbgHi, hatLo, hatHi, shifters_reload (hactive.mpr hr.1) (hreloads.mpr hr.2), e1]
    exact ⟨rfl, rfl, rfl, rfl⟩
  · exact hnt.trans (fetches_latch chr m _ Picture.ntLatch (fun _ _ => rfl) (by decide) (bgFetchPhase_ntLatch chr m _))
  · exact hat.trans (fetches_latch chr m _ Picture.atLatch (fun _ _ => rfl) (by decide) (bgFetchPhase_atLatch chr m _))
  · exact hlo.trans (fetches_latch chr m _ Picture.patLoLatch (fun _ _ => rfl) (by decide) (bgFetchPhase_patLoLatch chr m _))
  · exact hhi.trans (fetches_latch chr m _ Picture.patHiLatch (fun _ _ => rfl) (by decide) (bgFetchPhase_patHiLatch chr m _))

end Sys2Proof.Machine

namespace Sys2Proof.Machine

/-! The pixel of a dot (R445 to R447, R411 part (3)). -/

/-- A two-bit number by its bits. -/
theorem twoBits_toNat (h l : Bool) : (twoBits h l).toNat = 2 * (if h then 1 else 0) + (if l then 1 else 0) := by
  cases h <;> cases l <;> rfl

/-- A reload replaces bits 7:0, below every tap (R423). -/
theorem reloadLow_getLsbD (reg : BitVec 16) (low : Byte) {b : Nat} (hlo : 8 ≤ b) (hhi : b < 16) :
    (reloadLow reg low).getLsbD b = reg.getLsbD b := by
  have hmask : ∀ b < 16, 8 ≤ b → (0xFF00#16).getLsbD b = true := by decide
  rw [reloadLow, BitVec.getLsbD_or, BitVec.getLsbD_and, BitVec.getLsbD_setWidth, hmask b hhi hlo, BitVec.getLsbD_of_ge low b hlo,
    Bool.and_true, Bool.and_false, Bool.or_false]

/-- The bit of a shifter at the fine X tap, after the shift of the dot (R411 part (2), R445). -/
def tap (g : Picture) (reg : BitVec 16) : Bool := (if 2 ≤ g.dot then reg <<< 1 else reg).getLsbD (15 - g.fineX.toNat)

/-- `k` is `g` after part (2), as the taps see it. -/
structure Tapped (g k : Picture) : Prop where
  bgLo : k.bgLo.getLsbD (15 - g.fineX.toNat) = tap g g.bgLo
  bgHi : k.bgHi.getLsbD (15 - g.fineX.toNat) = tap g g.bgHi
  atLo : k.atLo.getLsbD (15 - g.fineX.toNat) = tap g g.atLo
  atHi : k.atHi.getLsbD (15 - g.fineX.toNat) = tap g g.atHi

/-- At a visible dot with rendering on the shifters have shifted, but at dot 1 (R411). -/
theorem tapped_shifters {g : Picture} (hvisible : g.scanline ≤ 239 ∧ 1 ≤ g.dot ∧ g.dot ≤ 256) (hon : renderingEnabled g = true) :
    Tapped g (shifters g) := by
  have hrendered : (renderingEnabled g && renderLine g) = true := by simp [hon, renderLine, hvisible.1]
  have hfine := g.fineX.isLt
  by_cases hd : 2 ≤ g.dot
  · have htap (reg : BitVec 16) : tap g reg = (reg <<< 1).getLsbD (15 - g.fineX.toNat) := by rw [tap, if_pos hd]
    by_cases hr : reloadDot g.dot = true
    · have hreload (reg : BitVec 16) (low : Byte) : (reloadLow (reg <<< 1) low).getLsbD (15 - g.fineX.toNat) = tap g reg := by
        rw [htap, reloadLow_getLsbD _ _ (by omega) (by omega)]
      rw [shifters_reload hrendered hr]
      exact ⟨hreload _ _, hreload _ _, hreload _ _, hreload _ _⟩
    · rw [shifters_shift hrendered ((shiftDot_iff _).mpr (by omega)) hr]
      exact ⟨(htap _).symm, (htap _).symm, (htap _).symm, (htap _).symm⟩
  · have htap (reg : BitVec 16) : tap g reg = reg.getLsbD (15 - g.fineX.toNat) := by rw [tap, if_neg hd]
    rw [shifters_idle (fun h => by have := (shiftDot_iff _).mp h.2; omega)]
    exact ⟨(htap _).symm, (htap _).symm, (htap _).symm, (htap _).symm⟩

/-- The background's pixel value and palette number at a visible dot: the taps where the layer shows, else 0 (R445). -/
theorem backgroundPixel_shifters {g : Picture} (hvisible : g.scanline ≤ 239 ∧ 1 ≤ g.dot ∧ g.dot ≤ 256) (X : Nat) :
    backgroundPixel (shifters g) X = if (maskBg g && (decide (8 ≤ X) || maskBgl g)) = true then
      (twoBits (tap g g.bgHi) (tap g g.bgLo), twoBits (tap g g.atHi) (tap g g.atLo)) else (0#2, 0#2) := by
  have hsame : maskBg (shifters g) = maskBg g ∧ maskBgl (shifters g) = maskBgl g ∧ (shifters g).fineX = g.fineX := by
    obtain ⟨_, _, _, _, e⟩ := shifters_frame g
    rw [e]
    exact ⟨rfl, rfl, rfl⟩
  obtain ⟨hbg, hbgl, hfine⟩ := hsame
  rw [backgroundPixel, hbg, hbgl, hfine]
  split
  · next hshown =>
    have hon : renderingEnabled g = true := by
      rw [renderingEnabled, (Bool.and_eq_true_iff.mp hshown).1, Bool.true_or]
    obtain ⟨h1, h2, h3, h4⟩ := tapped_shifters hvisible hon
    simp only [h1, h2, h3, h4]
  · rfl

/-- A sprite's pixel value as a number, 0 outside its eight columns (R445). -/
theorem spriteBits_toNat (e : SpriteEntry) (X : Nat) : (spriteBits e X).toNat =
    if e.x.toNat ≤ X ∧ X ≤ e.x.toNat + 7 then
      2 * (if e.hi.getLsbD (7 - (X - e.x.toNat)) then 1 else 0) + (if e.lo.getLsbD (7 - (X - e.x.toNat)) then 1 else 0)
    else 0 := by
  have hcolumns : (e.x.toNat ≤ X ∧ X - e.x.toNat ≤ 7) ↔ (e.x.toNat ≤ X ∧ X ≤ e.x.toNat + 7) := by omega
  rw [spriteBits, if_congr hcolumns rfl rfl]
  split
  · exact twoBits_toNat _ _
  · rfl

/-- Transparent sprites are passed over (R445). -/
theorem firstOpaque_append {X : Nat} {before : List SpriteEntry} (h : ∀ b ∈ before, spriteBits b X = 0#2) (rest : List SpriteEntry) :
    firstOpaque X (before ++ rest) = firstOpaque X rest := by
  induction before with
  | nil => rfl
  | cons b before ih =>
    rw [List.cons_append, firstOpaque, if_pos (h b List.mem_cons_self)]
    exact ih (fun c hc => h c (List.mem_cons_of_mem _ hc))

theorem firstOpaque_none {X : Nat} {sprites : List SpriteEntry} (h : ∀ b ∈ sprites, spriteBits b X = 0#2) :
    firstOpaque X sprites = none := by
  rw [← List.append_nil sprites, firstOpaque_append h, firstOpaque]

/-- The colour of a background pixel, and of a pixel where a sprite is opaque (R445, R447). -/
theorem pixelIndex_none (bg : BitVec 2 × BitVec 2) : pixelIndex bg none =
    if bg.1.toNat = 0 then 0 else 4 * bg.2.toNat + bg.1.toNat := by
  have hzero : bg.1 = 0#2 ↔ bg.1.toNat = 0 := BitVec.toNat_inj.symm
  rw [pixelIndex, if_congr hzero rfl rfl, backgroundIndex, append_toNat, show 2 ^ 2 = 4 from rfl]

theorem pixelIndex_some (bg : BitVec 2 × BitVec 2) (pix : BitVec 2) (e : SpriteEntry) : pixelIndex bg (some (pix, e)) =
    if bg.1.toNat ≠ 0 ∧ e.attr.getLsbD 5 = true then pixelIndex bg none else 16 + 4 * (e.attr.toNat % 4) + pix.toNat := by
  have hzero : bg.1 = 0#2 ↔ bg.1.toNat = 0 := BitVec.toNat_inj.symm
  have hsprite : spriteIndex e pix = 16 + 4 * (e.attr.toNat % 4) + pix.toNat := by
    rw [spriteIndex, append_toNat, BitVec.extractLsb'_toNat, Nat.shiftRight_zero]
    omega
  by_cases hbg : bg.1 = 0#2
  · rw [if_neg (fun h => h.1 (hzero.mp hbg)), ← hsprite]
    exact if_pos hbg
  · have hnone : pixelIndex bg none = backgroundIndex bg.2 bg.1 := if_neg hbg
    have hsome : pixelIndex bg (some (pix, e)) = if e.attr.getLsbD 5 then backgroundIndex bg.2 bg.1 else spriteIndex e pix :=
      if_neg hbg
    rw [hsome, hnone, hsprite]
    exact if_congr (and_iff_right (mt hzero.mpr hbg)).symm rfl rfl

/-- What sets S: an opaque background under the opaque pixel of entry 0, but in the last column (R446). -/
theorem hitsSpriteZero_some (bg : BitVec 2 × BitVec 2) (pix : BitVec 2) (e : SpriteEntry) (X : Nat) :
    hitsSpriteZero bg (some (pix, e)) X = (decide (bg.1.toNat ≠ 0) && e.isZero && decide (X ≠ 255)) := by
  have hzero : bg.1 = 0#2 ↔ bg.1.toNat = 0 := BitVec.toNat_inj.symm
  rw [Bool.eq_iff_iff]
  simp [hitsSpriteZero, hzero]

/-- A dot of the visible picture draws the pixel of its background and its sprite, and S may be set by it. -/
theorem ppuDot_visible (chr : Memory) (m : Mirroring) {g : Picture} (hvisible : g.scanline ≤ 239 ∧ 1 ≤ g.dot ∧ g.dot ≤ 256) :
    (ppuDot chr m g).fb = fbWrite g.fb g.scanline (g.dot - 1)
      (pixelColour g (pixelIndex (backgroundPixel (shifters g) (g.dot - 1)) (spritePixel g (g.dot - 1)))) ∧
    (ppuDot chr m g).spriteZeroHit = (g.spriteZeroHit ||
      hitsSpriteZero (backgroundPixel (shifters g) (g.dot - 1)) (spritePixel g (g.dot - 1)) (g.dot - 1)) := by
  obtain ⟨_, _, _, _, e⟩ := shifters_frame g
  rw [ppuDot_fb, ppuDot_spriteZeroHit, flagEvents_visible hvisible.1,
    pixelPart_visible (g := shifters g) (by rw [e]; exact hvisible), e]
  exact ⟨rfl, rfl⟩

/-- No other dot sets S (R446). -/
theorem ppuDot_hidden_spriteZeroHit (chr : Memory) (m : Mirroring) {g : Picture}
    (hhidden : ¬(g.scanline ≤ 239 ∧ 1 ≤ g.dot ∧ g.dot ≤ 256)) (hstart : ¬(g.scanline = 261 ∧ g.dot = 1)) :
    (ppuDot chr m g).spriteZeroHit = g.spriteZeroHit := by
  obtain ⟨-, -, hdot, hline⟩ := shiftedFields g
  rw [ppuDot_spriteZeroHit, pixelPart_hidden (by rwa [hdot, hline]), shifters_spriteZeroHit, (flagEvents_spriteState hstart).1]

/-- Settles O54: the pixel a visible dot draws, with the background at the taps and the first opaque sprite of the line buffer. -/
theorem pixelComposition : Obligations.PixelComposition := by
  intro chr m g h L X visible bit shown tapped bg bgp bgpal sp pix colour background
  have hpix (e : SpriteEntry) : (spriteBits e X).toNat = pix e := spriteBits_toNat e X
  have htransparent (e : SpriteEntry) : spriteBits e X = 0#2 ↔ pix e = 0 := by rw [← hpix, ← BitVec.toNat_inj]; rfl
  have hcolour (idx : Nat) : pixelColour g idx = colour idx := rfl
  have hbackground (hv : visible) :
      (backgroundPixel (shifters g) X).1.toNat = bgp ∧ (backgroundPixel (shifters g) X).2.toNat = bgpal := by
    have hbg : (maskBg g && (decide (8 ≤ X) || maskBgl g)) = bg := rfl
    rw [backgroundPixel_shifters hv X, hbg]
    simp only [bgp, bgpal]
    split
    · exact ⟨twoBits_toNat _ _, twoBits_toNat _ _⟩
    · exact ⟨rfl, rfl⟩
  have hindex (hv : visible) : pixelIndex (backgroundPixel (shifters g) X) none = background := by
    rw [pixelIndex_none, (hbackground hv).1, (hbackground hv).2]
  have hshown : (maskSp g && (decide (8 ≤ X) || maskSpl g)) = sp := rfl
  refine ⟨fun hv hL hclear => ?_, fun before after e hv hL hsp hsprites hbefore he => ?_, ppuDot_hidden_spriteZeroHit chr m⟩
  all_goals obtain ⟨hfb, hhit⟩ : h.fb = _ ∧ h.spriteZeroHit = _ := ppuDot_visible chr m hv
  · have hnone : spritePixel g X = none := by
      rw [spritePixel, hshown]
      rcases hclear with hoff | hclear
      · rw [if_neg (by rw [hoff]; decide)]
      · rw [firstOpaque_none (fun e he => (htransparent e).mpr (hclear e he)), ite_self]
    rw [hnone] at hfb hhit
    rw [hfb, hhit, fbRead_fbWrite _ _ _ _ _ _ hL, if_pos ⟨rfl, rfl⟩, hindex hv]
    exact ⟨rfl, Bool.or_false _⟩
  · have hsome : spritePixel g X = some (spriteBits e X, e) := by
      rw [spritePixel, hshown, if_pos hsp, hsprites, firstOpaque_append (fun b hb => (htransparent b).mpr (hbefore b hb)), firstOpaque,
        if_neg (mt (htransparent e).mp he)]
    rw [hsome, pixelIndex_some, hindex hv, (hbackground hv).1, hpix] at hfb
    rw [hsome, hitsSpriteZero_some, (hbackground hv).1] at hhit
    rw [hfb, hhit, fbRead_fbWrite _ _ _ _ _ _ hL, if_pos ⟨rfl, rfl⟩]
    exact ⟨rfl, rfl⟩

end Sys2Proof.Machine

namespace Sys2Proof.Machine

/-! Sprite evaluation (R440 to R443, R411 part (5)). -/

/-- `rev8` exchanges bit `i` with bit 7 - `i` (R442). -/
theorem rev8_getLsbD (b : Byte) {i : Nat} (hi : i < 8) : (rev8 b).getLsbD i = b.getLsbD (7 - i) := by
  unfold rev8
  interval_cases i <;> simp

/-- The address of a sprite's pattern byte: its table by CTRL or, in a sprite of 16 rows, by bit 0 of the tile, whose two halves are two
tiles (R443). -/
def spriteByte (g : Picture) (tile row H : Nat) : Nat :=
  if H = 8 then (if g.ctrl.getLsbD 3 then 4096 else 0) + 16 * tile + row
  else 4096 * (tile % 2) + 16 * (tile / 2 * 2 + row / 8) + row % 8

theorem spriteByte_lt (g : Picture) {tile row H : Nat} (htile : tile < 256) (hrow : row < H) (hH : H = 8 ∨ H = 16) :
    spriteByte g tile row H + 8 < 16384 := by
  unfold spriteByte
  split
  · split <;> omega
  · omega

theorem spritePatternAddr_eq (g : Picture) (tile : Byte) {row H : Nat} (hrow : row < H) (hH : H = 8 ∨ H = 16) :
    spritePatternAddr g tile row H = BitVec.ofNat 14 (spriteByte g tile.toNat row H) := by
  have htile := tile.isLt
  rcases hH with rfl | rfl
  · exact patternRow_eq (ctrlSpt g) tile (by omega)
  · have htable : (tile &&& 1#8).toNat = tile.toNat % 2 := by
      rw [BitVec.toNat_and]
      exact Nat.and_two_pow_sub_one_eq_mod tile.toNat 1
    have heven : (tile &&& 0xFE#8).toNat = 2 ^ 1 * (tile.toNat / 2) := by
      rw [BitVec.toNat_and]
      exact (and_field tile.toNat 7 1).trans (by omega)
    have hhalf : BitVec.ofNat 14 row >>> 3 = BitVec.ofNat 14 (row / 8) := by
      apply BitVec.eq_of_toNat_eq
      rw [BitVec.toNat_ushiftRight, BitVec.toNat_ofNat, BitVec.toNat_ofNat, Nat.shiftRight_eq_div_pow]
      omega
    have hline : BitVec.ofNat 14 row &&& 7#14 = BitVec.ofNat 14 (row % 8) := by
      rw [← BitVec.ofNat_and]
      exact congrArg _ (Nat.and_two_pow_sub_one_eq_mod row 3)
    have htiles := Nat.two_pow_add_eq_or_of_lt (i := 1) (show row / 8 < 2 ^ 1 by omega) (tile.toNat / 2)
    rw [spritePatternAddr, if_neg (by decide), ← BitVec.ofNat_toNat, ← BitVec.ofNat_toNat, htable, heven]
    simp only [hhalf, hline]
    rw [← BitVec.ofNat_or, ← htiles, ofNat_shiftLeft, ofNat_shiftLeft, patternFields_eq _ (by omega) (by omega), spriteByte,
      if_neg (by decide), Nat.mul_comm (2 ^ 1), Nat.pow_one]

theorem readChr_ofNat (chr : Memory) {a : Nat} (ha : a < 16384) : readChr chr (BitVec.ofNat 14 a) = chr.read a := by
  rw [readChr, BitVec.toNat_ofNat, Nat.mod_eq_of_lt ha]

/-- The pattern byte of a sprite's row, and that of the other plane eight bytes above it (R442, R443). -/
theorem readChr_spritePatternAddr (chr : Memory) (g : Picture) (tile : Byte) {row H : Nat} (hrow : row < H) (hH : H = 8 ∨ H = 16) :
    readChr chr (spritePatternAddr g tile row H) = chr.read (spriteByte g tile.toNat row H) ∧
      readChr chr (spritePatternAddr g tile row H + 8#14) = chr.read (spriteByte g tile.toNat row H + 8) := by
  have hbound := spriteByte_lt g tile.isLt hrow hH
  rw [spritePatternAddr_eq g tile hrow hH, ← BitVec.ofNat_add]
  exact ⟨readChr_ofNat chr (by omega), readChr_ofNat chr hbound⟩

/-- The row of the pattern that entry `n` shows on line `L`, with its vertical flip (R442). -/
def spriteRow (g : Picture) (H L n : Nat) : Nat :=
  if (g.oam.read (4 * n + 2)).getLsbD 7 then H - 1 - (L - (g.oam.read (4 * n)).toNat) else L - (g.oam.read (4 * n)).toNat

/-- A pattern byte of entry `n`, with its horizontal flip (R442). -/
def spriteFlip (g : Picture) (n : Nat) (b : Byte) : Byte := if (g.oam.read (4 * n + 2)).getLsbD 6 then rev8 b else b

/-- The fetch of an entry in range, with its pattern bytes at their addresses (R442). -/
theorem spriteFetch_eq (chr : Memory) (g : Picture) {H L n : Nat} (hH : H = 8 ∨ H = 16) (hrow : L - (g.oam.read (4 * n)).toNat < H) :
    spriteFetch chr g H n (L - (g.oam.read (4 * n)).toNat) =
      { x := g.oam.read (4 * n + 3), attr := g.oam.read (4 * n + 2)
        lo := spriteFlip g n (chr.read (spriteByte g (g.oam.read (4 * n + 1)).toNat (spriteRow g H L n) H))
        hi := spriteFlip g n (chr.read (spriteByte g (g.oam.read (4 * n + 1)).toNat (spriteRow g H L n) H + 8))
        isZero := decide (n = 0) } := by
  have hrow' : spriteRow g H L n < H := by
    unfold spriteRow
    split <;> omega
  obtain ⟨hlo, hhi⟩ := readChr_spritePatternAddr chr g (g.oam.read (4 * n + 1)) hrow' hH
  rw [← hlo, ← hhi]
  rfl

/-- The entries in range, as inequalities (R440). -/
theorem mem_spritesInRange (g : Picture) (L H n : Nat) : n ∈ spritesInRange g L H ↔
    n < 64 ∧ (g.oam.read (4 * n)).toNat ≤ L ∧ L < (g.oam.read (4 * n)).toNat + H := by
  simp only [spritesInRange, List.mem_filter, List.mem_range, spriteInRange, Bool.and_eq_true, decide_eq_true_eq]
  omega

/-- Part (5) works at dot 257 of the visible lines alone (R411). -/
theorem spritePart_idle (chr : Memory) {g : Picture} (h : ¬(g.scanline ≤ 239 ∧ g.dot = 257)) : spritePart chr g = g := if_neg h

/-- With rendering off the evaluation empties the line buffer and leaves O (R441). -/
theorem spriteEval_off (chr : Memory) (L : Nat) {g : Picture} (h : ¬renderingEnabled g = true) :
    spriteEval chr L g = { g with sprites := [] } := if_neg h

theorem spriteEval_on (chr : Memory) (L : Nat) {g : Picture} (h : renderingEnabled g = true) : spriteEval chr L g = { g with
    sprites := ((spritesInRange g L (spriteHeight g)).take 8).map
      (fun n => spriteFetch chr g (spriteHeight g) n (L - (g.oam.read (4 * n)).toNat))
    spriteOverflow := g.spriteOverflow || decide (8 < (spritesInRange g L (spriteHeight g)).length) } := if_pos h

theorem renderingEnabled_iff (g : Picture) : renderingEnabled g = true ↔ g.mask.getLsbD 3 = true ∨ g.mask.getLsbD 4 = true := by
  rw [renderingEnabled, Bool.or_eq_true]
  rfl

/-- What dot 257 of a visible line leaves in the line buffer and O is the evaluation of that line (R411). -/
theorem ppuDot_evaluates (chr : Memory) (m : Mirroring) {g : Picture} (h : g.scanline ≤ 239 ∧ g.dot = 257) :
    (ppuDot chr m g).sprites = (spriteEval chr g.scanline g).sprites ∧
      (ppuDot chr m g).spriteOverflow = (spriteEval chr g.scanline g).spriteOverflow := by
  have hpart : spritePart chr (flagEvents g) = spriteEval chr g.scanline g := by rw [flagEvents_visible h.1, spritePart, if_pos h]
  rw [(ppuDot_sprites chr m g).1, (ppuDot_sprites chr m g).2, hpart]
  exact ⟨rfl, rfl⟩

/-- Settles O55: part (5) at dot 257 of a visible line, the frame start at its own dot, and no other part. -/
theorem spriteEvaluation : Obligations.SpriteEvaluation := by
  intro chr m g h evaluates on H y tile attr row addr flip entry
  have hH : H = 8 ∨ H = 16 := by
    simp only [H]
    split <;> omega
  have hon : renderingEnabled g = true ↔ on := renderingEnabled_iff g
  refine ⟨fun hidle hstart => ?_, fun hl hd => ?_, fun he hoff => ?_, fun he hrender => ?_, ppuDot_oam chr m g, ppuDot_oamAddr chr m g,
    fun b i hi => rev8_getLsbD b hi⟩
  · obtain ⟨_, _, _, _, _, e⟩ := flagEvents_frame g
    obtain ⟨hsprites, hover⟩ : h.sprites = _ ∧ h.spriteOverflow = _ := ppuDot_sprites chr m g
    rw [hsprites, hover, spritePart_idle chr (by rw [e]; exact hidle)]
    exact (flagEvents_spriteState hstart).2
  · obtain ⟨-, hover, hsprites⟩ := ppuDot_frameStart chr m hl hd
    exact ⟨hsprites, hover⟩
  · obtain ⟨hsprites, hover⟩ : h.sprites = _ ∧ h.spriteOverflow = _ := ppuDot_evaluates chr m he
    rw [hsprites, hover, spriteEval_off chr _ (mt hon.mp hoff)]
    exact ⟨rfl, rfl⟩
  · obtain ⟨hsprites, hover⟩ : h.sprites = _ ∧ h.spriteOverflow = _ := ppuDot_evaluates chr m he
    have hmem (n : Nat) : n ∈ spritesInRange g g.scanline H ↔ n < 64 ∧ y n ≤ g.scanline ∧ g.scanline < y n + H :=
      mem_spritesInRange g g.scanline H n
    refine ⟨spritesInRange g g.scanline H, List.pairwise_lt_range.filter _, hmem, ?_, ?_⟩
    · rw [hsprites, spriteEval_on chr _ (hon.mpr hrender)]
      refine List.map_congr_left fun n hn => ?_
      obtain ⟨-, hlo, hhi⟩ := (hmem n).mp (List.mem_of_mem_take hn)
      exact spriteFetch_eq chr g hH (show g.scanline - y n < H by omega)
    · rw [hover, spriteEval_on chr _ (hon.mpr hrender)]
      rfl

/-! Rendering disabled (R450). -/

/-- With both layers off a visible dot draws the backdrop and leaves S. -/
theorem ppuDot_visible_off (chr : Memory) (m : Mirroring) {g : Picture} (hvisible : g.scanline ≤ 239 ∧ 1 ≤ g.dot ∧ g.dot ≤ 256)
    (hbg : g.mask.getLsbD 3 = false) (hsp : g.mask.getLsbD 4 = false) :
    (ppuDot chr m g).fb = fbWrite g.fb g.scanline (g.dot - 1) (pixelColour g 0) ∧
      (ppuDot chr m g).spriteZeroHit = g.spriteZeroHit := by
  have hback : backgroundPixel (shifters g) (g.dot - 1) = (0#2, 0#2) := by
    rw [backgroundPixel_shifters hvisible, maskBg, hbg]
    rfl
  have hsprite : spritePixel g (g.dot - 1) = none := by
    rw [spritePixel, maskSp, hsp]
    rfl
  obtain ⟨hfb, hhit⟩ := ppuDot_visible chr m hvisible
  rw [hfb, hhit, hback, hsprite]
  exact ⟨rfl, Bool.or_false _⟩

/-- Settles O56: with both layers off the schedules of O55, O57 and O58 do nothing but empty the line buffer, and a pixel has neither
background nor sprite. -/
theorem renderingDisabled : Obligations.RenderingDisabled := by
  intro chr m g hbg hsp h
  have hoff : ¬(g.mask.getLsbD 3 = true ∨ g.mask.getLsbD 4 = true) := by
    rw [hbg, hsp]
    decide
  obtain ⟨hidle, -, -, hnt, hat, hlo, hhi⟩ := backgroundPipeline chr m g
  obtain ⟨hbgLo, hbgHi, hatLo, hatHi⟩ := hidle (fun hs => hoff hs.1.2)
  obtain ⟨hv, -⟩ := scrollIncrements.2 chr m g
  obtain ⟨hother, hstart, heval, -⟩ := spriteEvaluation chr m g
  refine ⟨hbgLo, hbgHi, hatLo, hatHi, hnt.trans (if_neg fun hf => hoff hf.1.1.2), hat.trans (if_neg fun hf => hoff hf.1.1.2),
    hlo.trans (if_neg fun hf => hoff hf.1.1.2), hhi.trans (if_neg fun hf => hoff hf.1.1.2), hv fun ha => hoff ha.2, fun hzero => ?_,
    fun hover => ?_, fun hl hd => (heval ⟨hl, hd⟩ hoff).1, fun hl hrow hlo hhi => ?_⟩
  · by_cases hvisible : g.scanline ≤ 239 ∧ 1 ≤ g.dot ∧ g.dot ≤ 256
    · rwa [← (ppuDot_visible_off chr m hvisible hbg hsp).2]
    by_cases hfirst : g.scanline = 261 ∧ g.dot = 1
    · rw [(ppuDot_frameStart chr m hfirst.1 hfirst.2).1] at hzero
      cases hzero
    · rwa [← ppuDot_hidden_spriteZeroHit chr m hvisible hfirst]
  · by_cases hevaluates : g.scanline ≤ 239 ∧ g.dot = 257
    · rwa [← (heval hevaluates hoff).2]
    by_cases hfirst : g.scanline = 261 ∧ g.dot = 1
    · rw [(hstart hfirst.1 hfirst.2).2] at hover
      cases hover
    · rwa [← (hother hevaluates hfirst).2]
  · rw [(ppuDot_visible_off chr m ⟨hl, hlo, hhi⟩ hbg hsp).1, fbRead_fbWrite _ _ _ _ _ _ hrow, if_pos ⟨rfl, rfl⟩]
    rfl

end Sys2Proof.Machine
